-- ==== Sys2Proof/Word.lean ====
section
/-! DEFINITION. The widths the spec gives its values (spec/00_scope.md rule R9): bytes, 32-bit host words and frames. -/

namespace Sys2Proof

/-- A byte; bit 7 is its most significant bit (R9). -/
abbrev Byte := BitVec 8

/-- A 32-bit host word: a register, write data or read data (R20, R62). -/
abbrev Word := BitVec 32

/-- The byte sequence one packet occupies on a link port, byte 0 first (R14, R79).
The empty frame is the peer-closed marker (R76). -/
abbrev Frame := List Byte

end Sys2Proof
end

