-- ==== Sys2Proof/Config.lean ====
section
/-! DEFINITION. What is fixed for the machine: the constants of spec/00_scope.md rule R7, the parameters of rule R8,
and the open values of the spec as constants with no body. -/

namespace Sys2Proof.Config

/-- `WINDOW_SIZE`, in packets (R7). -/
def windowSize : BitVec 8 := 8

/-- The header length on the wire, in bytes (R7). -/
def headerBytes : Nat := 7

/-- `MAX_PAYLOAD` (R7). -/
def maxPayload : Nat := 64

/-- `MAX_FRAME` = 7 + 64 (R7). -/
def maxFrame : Nat := 71

/-- The ack number of the initial `last_ack_sent` (R7). -/
def initialAck : Byte := 255

/-- The parameters this spec chose (R8). "The model takes each one as an argument": they stand in State, no step
changes them, and statements hold for every legal value. -/
structure Params where
  /-- `P_TXBUF_BYTES`. -/
  txbufBytes : Nat
  /-- `P_RXBUF_BYTES`. -/
  rxbufBytes : Nat
  /-- `P_TICK_NS`, the period of the tick input in nanoseconds. R8 allows "any positive period" and does not say that it
  is a whole number of nanoseconds; that it is one here is the model's choice: DESIGN CHOICE (notes/assumptions/26.md).
  No operation reads it. -/
  tickNs : Nat
  deriving DecidableEq, Repr

/-- The legal values of R8. -/
abbrev Params.Legal (p : Params) : Prop :=
  p.txbufBytes % 64 = 0 ∧ 64 ≤ p.txbufBytes ∧ p.txbufBytes ≤ 65536 ∧
    1 ≤ p.rxbufBytes ∧ p.rxbufBytes ≤ 65536 ∧ 0 < p.tickNs

/-- "the default is the value this hardware takes" (R8). -/
def Params.default : Params := { txbufBytes := 65536, rxbufBytes := 65536, tickNs := 1000 }

/-- A deadline of `rto` ticks in nanoseconds (R8, R29). -/
def Params.deadlineNs (p : Params) (rto : Word) : Nat := rto.toNat * p.tickNs

/-- `P_BASE` is OPEN (R8): the index of the block's 2^18-aligned place on the platform bus, with no value. -/
opaque pBaseIndex : Nat

/-- `P_BASE`, aligned to 2^18 (R8). -/
def pBase : Nat := pBaseIndex * 2 ^ 18

/-- Which of two enabled engine operations is taken at the `k`-th open choice: left open by R181 and S16, so a free
value (notes/assumptions/2.md). `true` takes TX_SEND. -/
opaque engineChoice : Nat → Bool

end Sys2Proof.Config
end

