-- ==== Sys2Proof/Syntax.lean ====
section
/-! DEFINITION. The instructions: one constructor for each of the 35 rows of spec/opcode_table.json, in the table's
order, and the encoded words an agent presents (spec/30_encoding.md rules R94, R97, R98). -/

namespace Sys2Proof

/-- One constructor per row of the opcode table. The five mnemonics that stand twice there (as a command word and as
an operation code) have two constructors: `cmd…` is the row of format CMD, the plain name the row of format OP. -/
inductive Instr where
  -- format CMD: a 32-bit word the host writes to CMD (R95, R96)
  /-- Command word 0x00000000. -/
  | cmdNop
  /-- Command word 0x00000001. -/
  | cmdTxStart
  /-- Command word 0x00000002. -/
  | cmdRxStart
  /-- Command word 0x00000003. -/
  | cmdClose
  /-- Any other command word. -/
  | cmdIllegal (w : Word)
  -- format OP: an 8-bit operation code (R98)
  /-- Code 0x00 (R248). -/
  | nop
  /-- Code 0x01 (R170). -/
  | txStart
  /-- Code 0x02 (R210). -/
  | rxStart
  /-- Code 0x03 (R249). -/
  | close
  /-- Code 0x0F (R250). -/
  | illegalCmd
  /-- Code 0x10 (R172). -/
  | txSend
  /-- Code 0x11 (R174). -/
  | ackAccept
  /-- Code 0x12 (R175). -/
  | ackIgnore
  /-- Code 0x13 (R176). -/
  | tickCount
  /-- Code 0x14 (R177). -/
  | timerExpire
  /-- Code 0x15 (R178). -/
  | tickIdle
  /-- Code 0x16 (R179). -/
  | sndPeerClosed
  /-- Code 0x20 (R212). -/
  | rxAccept
  /-- Code 0x21 (R213). -/
  | rxDupack
  /-- Code 0x22 (R214). -/
  | rxPeerClose
  /-- Code 0x30 (R134). -/
  | frameShort
  /-- Code 0x31 (R135). -/
  | frameOversize
  /-- Code 0x32 (R136). -/
  | frameStray
  -- format HREQ: a 21-bit host access descriptor, and write data for a write (R97)
  /-- REG_READ of the register at `off` (R241). -/
  | regRead (off : BitVec 16)
  /-- REG_WRITE of `wdata` to the register at `off` (R242). -/
  | regWrite (off : BitVec 16) (wdata : Word)
  /-- TXBUF_RD8 at buffer offset `o` (R243). -/
  | txbufRd8 (o : BitVec 16)
  /-- TXBUF_RD16 at buffer offset `o` (R243). -/
  | txbufRd16 (o : BitVec 16)
  /-- TXBUF_RD32 at buffer offset `o` (R243). -/
  | txbufRd32 (o : BitVec 16)
  /-- TXBUF_WR8 at buffer offset `o` (R244). -/
  | txbufWr8 (o : BitVec 16) (wdata : Word)
  /-- TXBUF_WR16 at buffer offset `o` (R244). -/
  | txbufWr16 (o : BitVec 16) (wdata : Word)
  /-- TXBUF_WR32 at buffer offset `o` (R244). -/
  | txbufWr32 (o : BitVec 16) (wdata : Word)
  /-- RXBUF_RD8 at buffer offset `o` (R245). -/
  | rxbufRd8 (o : BitVec 16)
  /-- RXBUF_RD16 at buffer offset `o` (R245). -/
  | rxbufRd16 (o : BitVec 16)
  /-- RXBUF_RD32 at buffer offset `o` (R245). -/
  | rxbufRd32 (o : BitVec 16)
  /-- BUS_ERROR: any other descriptor, by its three fields (R246). -/
  | busError (we : Bool) (sz : BitVec 2) (off : BitVec 18)
  deriving DecidableEq, Repr

/-- An encoded input of the block, before decoding. -/
inductive RawInput where
  /-- The host writes this word to CMD (R94). -/
  | cmd (w : Word)
  /-- The operation of this code is taken (R98). -/
  | op (code : Byte)
  /-- The host makes the access of this descriptor, with this write data (R97). -/
  | hreq (h : BitVec 21) (wdata : Word)
  /-- Bits of a width that none of the three formats has. -/
  | other (nbits bits : Nat)
  deriving DecidableEq, Repr

end Sys2Proof
end

