-- ==== Sys2Proof/WellFormed.lean ====
section
/-! DEFINITION. Which instructions have an encoding: the alignment the HREQ rows fix (spec/30_encoding.md rule R97,
spec/20_memory.md rule R64), and that the two default rows (ILLEGAL_CMD, BUS_ERROR) hold only what no other row of
their format matches. -/

namespace Sys2Proof

/-- Natural alignment of an access of 2^k bytes: the low k bits of the offset are 0 (R64). -/
def aligned {w : Nat} (k : Nat) (off : BitVec w) : Bool := off.toNat % 2 ^ k == 0

/-- A command word that none of the four commands of R95 takes (R96). -/
def illegalCommandWord (w : Word) : Bool := 3 < w.toNat

/-- Whether some row of R97 other than BUS_ERROR takes the access: an aligned 4-byte access of the register window,
an aligned access of TXBUF, or an aligned read of RXBUF (R64, R66, R67). -/
def legalAccess (we : Bool) (sz : BitVec 2) (off : BitVec 18) : Bool :=
  match (off.extractLsb' 16 2).toNat with
  | 0 => sz == 2 && aligned 2 off
  | 1 => sz != 3 && aligned sz.toNat off
  | 2 => !we && sz != 3 && aligned sz.toNat off
  | _ => false

/-- The instruction has an encoding of its own row. -/
def Instr.wf : Instr → Bool
  | .cmdIllegal w => illegalCommandWord w
  | .regRead off | .regWrite off _ => aligned 2 off
  | .txbufRd16 o | .txbufWr16 o _ | .rxbufRd16 o => aligned 1 o
  | .txbufRd32 o | .txbufWr32 o _ | .rxbufRd32 o => aligned 2 o
  | .busError we sz off => !legalAccess we sz off
  | .cmdNop | .cmdTxStart | .cmdRxStart | .cmdClose
  | .nop | .txStart | .rxStart | .close | .illegalCmd
  | .txSend | .ackAccept | .ackIgnore | .tickCount | .timerExpire | .tickIdle | .sndPeerClosed
  | .rxAccept | .rxDupack | .rxPeerClose | .frameShort | .frameOversize | .frameStray
  | .txbufRd8 _ | .txbufWr8 _ _ | .rxbufRd8 _ => true

end Sys2Proof
end

