-- ==== Sys2Proof/Decode.lean ====
section
/-! DEFINITION. The decoder and the encoder (spec/30_encoding.md rules R94 to R98, spec/opcode_table.json). Decoding is
total on every input and rejects by name what no row encodes; the encoder is written from the same tables. -/

namespace Sys2Proof

/-- Why an input decodes to no instruction. -/
inductive DecodeReject where
  /-- An operation code that R98 does not list: "Codes not listed are never produced". -/
  | unlistedOpCode (code : Byte)
  /-- Bits of a width that no format of the table has. -/
  | noSuchFormat (nbits : Nat)
  deriving DecidableEq, Repr

/-! ## Command words (R95, R96) -/

/-- Every 32-bit word is a command word: the four of R95, and ILLEGAL_CMD for all others (R96). -/
def decodeCmd (w : Word) : Instr :=
  match w.toNat with
  | 0 => .cmdNop
  | 1 => .cmdTxStart
  | 2 => .cmdRxStart
  | 3 => .cmdClose
  | _ => .cmdIllegal w

/-! ## Operation codes (R98) -/

/-- The table of R98. -/
def opTable : List (Byte × Instr) :=
  [(0x00, .nop), (0x01, .txStart), (0x02, .rxStart), (0x03, .close), (0x0F, .illegalCmd),
   (0x10, .txSend), (0x11, .ackAccept), (0x12, .ackIgnore), (0x13, .tickCount),
   (0x14, .timerExpire), (0x15, .tickIdle), (0x16, .sndPeerClosed),
   (0x20, .rxAccept), (0x21, .rxDupack), (0x22, .rxPeerClose),
   (0x30, .frameShort), (0x31, .frameOversize), (0x32, .frameStray)]

/-- The operation of a code, if R98 lists it. -/
def decodeOp (code : Byte) : Option Instr :=
  (opTable.find? fun row => row.1 == code).map Prod.snd

/-! ## Host access descriptors (R97) -/

/-- The eleven bus operations that have a row of their own in R97. -/
inductive HreqKind where
  | regRead | regWrite
  | txbufRd8 | txbufRd16 | txbufRd32
  | txbufWr8 | txbufWr16 | txbufWr32
  | rxbufRd8 | rxbufRd16 | rxbufRd32
  deriving DecidableEq, Repr

/-- One row of R97: a descriptor `h` matches when `h &&& mask = pat`. -/
structure HreqRow where
  pat : BitVec 21
  mask : BitVec 21
  kind : HreqKind
  deriving DecidableEq, Repr

/-- The rows of R97, as the spec lists them. -/
def hreqRows : List HreqRow :=
  [⟨0x080000, 0x1F0003, .regRead⟩, ⟨0x180000, 0x1F0003, .regWrite⟩,
   ⟨0x010000, 0x1F0000, .txbufRd8⟩, ⟨0x050000, 0x1F0001, .txbufRd16⟩, ⟨0x090000, 0x1F0003, .txbufRd32⟩,
   ⟨0x110000, 0x1F0000, .txbufWr8⟩, ⟨0x150000, 0x1F0001, .txbufWr16⟩, ⟨0x190000, 0x1F0003, .txbufWr32⟩,
   ⟨0x020000, 0x1F0000, .rxbufRd8⟩, ⟨0x060000, 0x1F0001, .rxbufRd16⟩, ⟨0x0A0000, 0x1F0003, .rxbufRd32⟩]

/-- Whether the row matches the descriptor. -/
def HreqRow.hits (r : HreqRow) (h : BitVec 21) : Bool := h &&& r.mask == r.pat

/-- WE, bit 20 (R97). -/
def hreqWe (h : BitVec 21) : Bool := h.getLsbD 20

/-- SZ, bits 19:18 (R97). -/
def hreqSz (h : BitVec 21) : BitVec 2 := h.extractLsb' 18 2

/-- OFF, bits 17:0 (R97). -/
def hreqOff (h : BitVec 21) : BitVec 18 := h.extractLsb' 0 18

/-- The instruction of a row: the offset inside the window is OFF[15:0] (R61, R241). -/
def HreqKind.instr (k : HreqKind) (h : BitVec 21) (wdata : Word) : Instr :=
  let o := h.extractLsb' 0 16
  match k with
  | .regRead => .regRead o
  | .regWrite => .regWrite o wdata
  | .txbufRd8 => .txbufRd8 o
  | .txbufRd16 => .txbufRd16 o
  | .txbufRd32 => .txbufRd32 o
  | .txbufWr8 => .txbufWr8 o wdata
  | .txbufWr16 => .txbufWr16 o wdata
  | .txbufWr32 => .txbufWr32 o wdata
  | .rxbufRd8 => .rxbufRd8 o
  | .rxbufRd16 => .rxbufRd16 o
  | .rxbufRd32 => .rxbufRd32 o

/-- "Any descriptor matching no row below is BUS_ERROR" (R97). -/
def decodeHreq (h : BitVec 21) (wdata : Word) : Instr :=
  match hreqRows.find? (fun r => r.hits h) with
  | some r => r.kind.instr h wdata
  | none => .busError (hreqWe h) (hreqSz h) (hreqOff h)

/-! ## The decoder -/

/-- Total on every input. -/
def decode : RawInput → Except DecodeReject Instr
  | .cmd w => .ok (decodeCmd w)
  | .op code =>
    match decodeOp code with
    | some i => .ok i
    | none => .error (.unlistedOpCode code)
  | .hreq h wdata => .ok (decodeHreq h wdata)
  | .other nbits _ => .error (.noSuchFormat nbits)

/-! ## The encoder -/

/-- HREQ = {WE, SZ, OFF} (R97, R240). -/
def hreqOf (we : Bool) (sz : BitVec 2) (off : BitVec 18) : BitVec 21 :=
  (BitVec.ofBool we ++ sz ++ off).cast (by decide)

/-- OFF = {window, offset in the window} (R61). -/
def offsetOf (window : BitVec 2) (o : BitVec 16) : BitVec 18 :=
  (window ++ o).cast (by decide)

/-- The words of an instruction, from R95, R98 and the field layout of R97. -/
def encode : Instr → RawInput
  | .cmdNop => .cmd 0x00000000
  | .cmdTxStart => .cmd 0x00000001
  | .cmdRxStart => .cmd 0x00000002
  | .cmdClose => .cmd 0x00000003
  | .cmdIllegal w => .cmd w
  | .nop => .op 0x00
  | .txStart => .op 0x01
  | .rxStart => .op 0x02
  | .close => .op 0x03
  | .illegalCmd => .op 0x0F
  | .txSend => .op 0x10
  | .ackAccept => .op 0x11
  | .ackIgnore => .op 0x12
  | .tickCount => .op 0x13
  | .timerExpire => .op 0x14
  | .tickIdle => .op 0x15
  | .sndPeerClosed => .op 0x16
  | .rxAccept => .op 0x20
  | .rxDupack => .op 0x21
  | .rxPeerClose => .op 0x22
  | .frameShort => .op 0x30
  | .frameOversize => .op 0x31
  | .frameStray => .op 0x32
  | .regRead off => .hreq (hreqOf false 2 (offsetOf 0 off)) 0
  | .regWrite off wdata => .hreq (hreqOf true 2 (offsetOf 0 off)) wdata
  | .txbufRd8 o => .hreq (hreqOf false 0 (offsetOf 1 o)) 0
  | .txbufRd16 o => .hreq (hreqOf false 1 (offsetOf 1 o)) 0
  | .txbufRd32 o => .hreq (hreqOf false 2 (offsetOf 1 o)) 0
  | .txbufWr8 o wdata => .hreq (hreqOf true 0 (offsetOf 1 o)) wdata
  | .txbufWr16 o wdata => .hreq (hreqOf true 1 (offsetOf 1 o)) wdata
  | .txbufWr32 o wdata => .hreq (hreqOf true 2 (offsetOf 1 o)) wdata
  | .rxbufRd8 o => .hreq (hreqOf false 0 (offsetOf 2 o)) 0
  | .rxbufRd16 o => .hreq (hreqOf false 1 (offsetOf 2 o)) 0
  | .rxbufRd32 o => .hreq (hreqOf false 2 (offsetOf 2 o)) 0
  | .busError we sz off => .hreq (hreqOf we sz off) 0

/-! ## The table's own numbering of bits -/

/-- The input of `nbits` bits `w`, numbered as the opcode table numbers them: 32 bits are a command word, 8 bits an
operation code, 24 bits a descriptor (21 bits in whole bytes), 56 bits a descriptor and its write data. The table
gives the CMD row ILLEGAL_CMD only the 8 bits of OPCODE: 8 bits that are no listed operation code are that row's,
its MBZ bits 0 (notes/assumptions/5.md). -/
def tableInput (nbits w : Nat) : RawInput :=
  if 2 ^ nbits ≤ w then .other nbits w
  else
    match nbits with
    | 8 => if (decodeOp (BitVec.ofNat 8 w)).isSome then .op (BitVec.ofNat 8 w) else .cmd (BitVec.ofNat 32 w)
    | 24 => if w < 2 ^ 21 then .hreq (BitVec.ofNat 21 w) 0 else .other nbits w
    | 32 => .cmd (BitVec.ofNat 32 w)
    | 56 =>
      if w % 2 ^ 24 < 2 ^ 21 then .hreq (BitVec.ofNat 21 (w % 2 ^ 24)) (BitVec.ofNat 32 (w / 2 ^ 24))
      else .other nbits w
    | _ => .other nbits w

/-- The instruction the decoder reads from those bits. -/
def decodeTableWord (nbits w : Nat) : Option Instr :=
  match decode (tableInput nbits w) with
  | .ok i => some i
  | .error _ => none

end Sys2Proof
end

