-- ==== Sys2Proof/Machine/State.lean ====
section
/-! DEFINITION. The state of the backTCP ARQ core (spec/10_state.md, spec/20_memory.md), the reasons a step can stop,
and the state after reset. INVENTORY.md lists every field with its rule. -/

namespace Sys2Proof.Machine

/-- The engine's control state `STATE` (R21). The values 5 to 7 of its 3-bit encoding are "never held", and there is
no way to write them here. -/
inductive Phase where
  | idle | sending | sendDone | receiving | recvDone
  deriving DecidableEq, Repr

/-- The two byte buffers (R60). -/
inductive Space where
  | txbuf | rxbuf
  deriving DecidableEq, Repr

/-- The events of R270, in the order of their codes. -/
inductive Event where
  | txDone | rxDone | shortFrame | oversizeFrame | rxOverflow | illegalCmd | peerClosed | strayFrame
  deriving DecidableEq, Repr

/-- One entry of the event history: an event and the `info` of its `raise` (R271), where the operation gives one. -/
structure EventRecord where
  event : Event
  info : Option Nat
  deriving DecidableEq, Repr

/-- The response to the last host access (R62, R69). It is the bus's, not a register of the block. -/
inductive Response where
  /-- No access has been made. -/
  | noAccess
  /-- A write was done. -/
  | writeDone
  /-- A read returned `rdata`. -/
  | readDone (rdata : Word)
  /-- A write got the error response. -/
  | writeError
  /-- A read got the error response, with this `rdata`. -/
  | readError (rdata : Word)
  deriving DecidableEq, Repr

/-- The registers of the map of R49. -/
inductive Reg where
  | ctrl | cmd | status | irqStatus | irqEnable | hdrCfg | ackFill | rto | timerCount | txLen | txTotal | txBase
  | txNext | txRflag | rxExpected | rxLen | rxLastack | txFrames | rxFrames | timeouts
  deriving DecidableEq, Repr

/-- One step of one agent (R12), as the schedule names it. -/
inductive Turn where
  /-- An encoded input: a host access, a command word, or the code of the operation taken. -/
  | input (r : RawInput)
  /-- TIMEBASE presents one tick. -/
  | tick
  /-- ENGINE takes one of its enabled operations, of its own choice. -/
  | engine
  /-- LINK appends a frame to link-in. -/
  | deliver (f : Frame)
  /-- LINK takes the oldest frame off the link-out port. -/
  | take
  /-- LINK discards the frame emitted last (DROP of R102). -/
  | drop
  /-- LINK drives the link-out ready level. -/
  | setReady (level : Bool)
  /-- RESET. -/
  | reset
  deriving DecidableEq, Repr

/-- A buffer's bytes, by offset: offsets strictly rising, an unlisted offset holds no value (R45, R81). -/
abbrev Memory := List Host.Cell

/-- Why a step stops with a fault. -/
inductive Fault where
  /-- A host read or TX_SEND reads a byte that holds no value (R81, R277). Raised by the buffer reads. Safe: the chip
  returns some byte, and no claim can be proved of such a run. -/
  | unwrittenBufferRead (space : Space) (offset : Nat)
  /-- RX_DUPACK would send LA while LA is NONE, which "is never" so while RECEIVING (R213). Raised by RX_DUPACK in
  states that no run reaches. Safe. -/
  | lastAckMissing
  deriving DecidableEq, Repr

/-- Why a step is refused. -/
inductive Refusal where
  /-- The instruction has no meaning yet. Raised by exec's refused arms only. Safe. -/
  | notModelled (mnemonic : String)
  /-- Encode was called with more than 64 payload bytes (R130, R277). Raised by the codec; the block never makes such
  a call. Safe. -/
  | encodeOversizePayload
  /-- The input is no word of the opcode table (R98: "Codes not listed are never produced"). Raised by step. Safe. -/
  | undecodable (why : DecodeReject)
  deriving DecidableEq, Repr

/-- The state of the block, of the ports the environment drives, and of the schedule. -/
structure State where
  /-- CTRL.ACK_ZLP (R22). -/
  ackZlp : Bool
  /-- STATE (R21). -/
  phase : Phase
  /-- STATUS.LAST_OP (R43). -/
  lastOp : Byte
  /-- IRQ_STATUS[7:0] (R25). -/
  irqStatus : BitVec 8
  /-- IRQ_ENABLE[7:0] (R26). -/
  irqEnable : BitVec 8
  /-- HDR_CFG (R27). -/
  hdrCfg : Word
  /-- ACK_FILL.FILL (R28). -/
  ackFill : Byte
  /-- RTO (R29). -/
  rto : Word
  /-- TMR_CNT (R30). -/
  tmrCnt : Word
  /-- TMR_ACT (R31). -/
  tmrAct : Bool
  /-- TX_LEN (R32). -/
  txLen : BitVec 17
  /-- TX_TOTAL (R33). -/
  txTotal : BitVec 16
  /-- TX_BASE (R34). -/
  txBase : BitVec 16
  /-- TX_NEXT (R35). -/
  txNext : BitVec 16
  /-- RFLAG[7..0] (R36). -/
  rflag : BitVec 8
  /-- RX_EXPECTED (R37). -/
  rxExpected : Byte
  /-- RX_LEN (R38). -/
  rxLen : BitVec 17
  /-- LA, NONE or a frame (R39). -/
  la : Option Frame
  /-- TX_FRAMES (R40). -/
  txFrames : Word
  /-- RX_FRAMES (R41). -/
  rxFrames : Word
  /-- TIMEOUTS (R42). -/
  timeouts : Word
  /-- TXBUF (R66). -/
  txbuf : Memory
  /-- RXBUF (R67). -/
  rxbuf : Memory
  /-- The parameters of R8, changed by no step. -/
  params : Config.Params
  /-- The link-in queue, head first (R46, R76). -/
  linkIn : List Frame
  /-- The frames emitted and not yet taken by LINK, oldest first (R46, R77). -/
  linkOut : List Frame
  /-- The link-out ready level (R77). -/
  ready : Bool
  /-- The response to the last host access (R62, R69). -/
  resp : Response
  /-- The event history, oldest first (R271). -/
  events : List EventRecord
  /-- The MODEL's own: the turns still to be taken, first first (R181, notes/assumptions/1.md). -/
  agenda : List Turn
  /-- The MODEL's own: how many open engine choices have been drawn (R181, notes/assumptions/2.md). -/
  choiceIdx : Nat
  deriving DecidableEq, Repr

/-- The machine right after power-on reset (R49, R300): every register at the value its rule gives, LA NONE, no buffer
byte holding a value. The link ports and the model's own fields stand at the values of notes/assumptions/1.md, 2.md,
7.md, 8.md and 9.md. -/
def State.reset : State where
  ackZlp := false
  phase := .idle
  lastOp := 0xFF
  irqStatus := 0
  irqEnable := 0
  hdrCfg := 0x08070000
  ackFill := 0x00
  rto := 10000
  tmrCnt := 0
  tmrAct := false
  txLen := 0
  txTotal := 0
  txBase := 0
  txNext := 0
  rflag := 0
  rxExpected := 0
  rxLen := 0
  la := none
  txFrames := 0
  rxFrames := 0
  timeouts := 0
  txbuf := []
  rxbuf := []
  params := Config.Params.default
  linkIn := []
  linkOut := []
  ready := true
  resp := .noAccess
  events := []
  agenda := []
  choiceIdx := 0

/-- What a meaning answers. -/
abbrev Result := Host.Outcome State Fault Refusal

end Sys2Proof.Machine
end

