-- ==== Sys2Proof/Machine/Ops.lean ====
section
/-! DEFINITION. The named operations over buffers, events, ports and counters that every meaning is built from
(the primitives of spec/00_scope.md rule R10). -/

namespace Sys2Proof.Machine

/-! ## Buffers (R45, R63, R81) -/

/-- The byte at an offset, or no value. -/
def Memory.read : Memory → Nat → Option Byte
  | [], _ => none
  | (b, v) :: m, a => if b = a then some v else Memory.read m a

/-- Write one byte, keeping the offsets strictly rising. -/
def Memory.write : Memory → Nat → Byte → Memory
  | [], a, v => [(a, v)]
  | (b, w) :: m, a, v =>
    if a < b then (a, v) :: (b, w) :: m
    else if a = b then (a, v) :: m
    else (b, w) :: Memory.write m a v

/-- The canonical form: offsets strictly rising. (An unlisted offset holds no value, so no entry can equal it.) -/
def Memory.wf : Memory → Bool
  | [] => true
  | [_] => true
  | c :: d :: m => decide (c.1 < d.1) && Memory.wf (d :: m)

/-- `MemRead(space, off, n)` (R10): the `n` bytes from `off` on, or the fault that names the first of them that holds
no value (R81). -/
def readBytes (space : Space) (m : Memory) (off : Nat) : Nat → Except Fault (List Byte)
  | 0 => .ok []
  | n + 1 =>
    match Memory.read m off with
    | none => .error (.unwrittenBufferRead space off)
    | some b =>
      match readBytes space m (off + 1) n with
      | .ok bs => .ok (b :: bs)
      | .error f => .error f

/-- `MemWrite(space, off, n, v)` (R10), byte by byte from `off` on. -/
def writeBytes (m : Memory) (off : Nat) : List Byte → Memory
  | [] => m
  | b :: bs => writeBytes (Memory.write m off b) (off + 1) bs

/-- The value of bytes read little-endian, zero-extended to 32 bits (R63, R243). -/
def leValue : List Byte → Word
  | [] => 0
  | b :: bs => b.setWidth 32 ||| (leValue bs <<< 8)

/-- The `n` bytes of write data, `wdata[8k+7:8k]` for byte `k` (R63, R244). -/
def leBytes (wdata : Word) : Nat → List Byte
  | 0 => []
  | n + 1 => wdata.setWidth 8 :: leBytes (wdata >>> 8) n

/-! ## Events (R270, R271, R276): the block's counterpart of taking an exception and of returning from one -/

/-- The IRQ_STATUS bit of an event (R270). -/
def Event.code : Event → Nat
  | .txDone => 0
  | .rxDone => 1
  | .shortFrame => 2
  | .oversizeFrame => 3
  | .rxOverflow => 4
  | .illegalCmd => 5
  | .peerClosed => 6
  | .strayFrame => 7

/-- The event's bit. -/
def Event.mask (e : Event) : BitVec 8 := 1#8 <<< e.code

/-- `raise E(info)`: sets the event's IRQ_STATUS bit; `info` goes only into the event history (R271). Nothing is saved
and control is not transferred (R275). -/
def raise (e : Event) (info : Option Nat) (s : State) : State :=
  { s with irqStatus := s.irqStatus ||| e.mask, events := s.events ++ [⟨e, info⟩] }

/-- The host's write of 1s to IRQ_STATUS, the block's only "return" (R242, R276). -/
def clearEvents (ones : BitVec 8) (s : State) : State :=
  { s with irqStatus := s.irqStatus &&& ~~~ones }

/-! ## Ports and counters -/

/-- `emit(f)`: the frame stands on link-out, and TX_FRAMES counts it (R10, R40). -/
def emit (f : Frame) (s : State) : State :=
  { s with linkOut := s.linkOut ++ [f], txFrames := s.txFrames + 1 }

/-- `consume()`: the head frame leaves link-in, and RX_FRAMES counts it (R10, R41). -/
def consume (s : State) : State :=
  { s with linkIn := s.linkIn.tail, rxFrames := s.rxFrames + 1 }

/-- STATUS.LAST_OP is written at the end of an operation (R43). -/
def recordOp (code : Byte) (s : State) : State := { s with lastOp := code }

/-- TX_START and RX_START clear the three counters (R40, R41, R42). -/
def clearCounters (s : State) : State := { s with txFrames := 0, rxFrames := 0, timeouts := 0 }

/-- Arming loads the down-counter with RTO (R172, R174). -/
def armTimer (s : State) : State := { s with tmrAct := true, tmrCnt := s.rto }

/-- "Every disarm writes 0" (R30, D37). -/
def disarmTimer (s : State) : State := { s with tmrAct := false, tmrCnt := 0 }

/-- The response to a host access (R62). -/
def respond (r : Response) (s : State) : State := { s with resp := r }

/-- An operation that is not enabled, or that link-out holds, is not taken: nothing changes (R77, R99, R277,
notes/assumptions/3.md). -/
def hold (s : State) : Result := .next s

end Sys2Proof.Machine
end

