-- ==== Sys2Proof/Machine/Codec.lean ====
section
/-! DEFINITION. The packet codec and the frame classes (spec/40_codec.md rules R130 to R132, spec/30_encoding.md rules
R90 to R93). Combinational: no function here takes a step (R137). -/

namespace Sys2Proof.Machine

/-- A packet record: "unsigned values, 8 bits or wider" and 0 to 64 payload bytes (R130). -/
structure Packet where
  sourcePort : Nat
  destPort : Nat
  seq : Nat
  ack : Nat
  headerLength : Nat
  windowSize : Nat
  retransmitFlag : Nat
  payload : List Byte
  deriving DecidableEq, Repr

/-- The low byte of a field. -/
def lowByte (v : Nat) : Byte := BitVec.ofNat 8 v

/-- The seven header bytes "in fixed field order" (R90); the flag's bit 0 fills byte 6 (R91). -/
def headerOf (p : Packet) : Frame :=
  [lowByte p.sourcePort, lowByte p.destPort, lowByte p.seq, lowByte p.ack,
   lowByte p.headerLength, lowByte p.windowSize, lowByte (p.retransmitFlag % 2)]

/-- `Encode(p)` (R130, R132). A payload of more than 64 bytes is refused: the block makes no such call (R277). -/
def encodePacket (p : Packet) : Except Refusal Frame :=
  if p.payload.length ≤ Config.maxPayload then .ok (headerOf p ++ p.payload)
  else .error .encodeOversizePayload

/-- Use an encoded frame; a refused Encode refuses the operation that called it (R277). -/
def withEncoded (p : Packet) (use : Frame → Result) : Result :=
  match encodePacket p with
  | .ok f => use f
  | .error r => .refused r

/-- What Decode answers (R131). -/
inductive Decoded where
  | none
  | short
  | pkt (p : Packet)
  deriving DecidableEq, Repr

/-- `Decode(f)` (R131): positional, nothing checked, byte 6 raw (R91). -/
def decodeFrame : Frame → Decoded
  | [] => .none
  | b0 :: b1 :: b2 :: b3 :: b4 :: b5 :: b6 :: payload =>
    .pkt { sourcePort := b0.toNat, destPort := b1.toNat, seq := b2.toNat, ack := b3.toNat,
           headerLength := b4.toNat, windowSize := b5.toNat, retransmitFlag := b6.toNat, payload := payload }
  | _ => .short

/-- The classes of a frame on link-in (R93). -/
inductive FrameClass where
  | closeMarker | short | packet | oversize
  deriving DecidableEq, Repr

/-- The class of a frame, by its length (R93). -/
def classOf (f : Frame) : FrameClass :=
  if f.length = 0 then .closeMarker
  else if f.length < Config.headerBytes then .short
  else if f.length ≤ Config.maxFrame then .packet
  else .oversize

end Sys2Proof.Machine
end

