-- ==== Sys2Proof/Machine/Seqarith.lean ====
section
/-! DEFINITION. Sequence-number arithmetic and the window comparator (spec/41_seqarith.md rules R150 to R160), as pure
functions of their operands. -/

namespace Sys2Proof.Machine

/-- `Seq(i) = i[7:0]` (R150). -/
def seqOf (i : BitVec 16) : Byte := i.setWidth 8

/-- `SeqInc(s) = (s + 1) mod 256` (R151). -/
def seqInc (s : Byte) : Byte := s + 1

/-- `SeqDist(a, b) = (a - b) mod 256` (R152). -/
def seqDist (a b : Byte) : Byte := a - b

/-- `SeqEq(a, b)` (R153). -/
def seqEq (a b : Byte) : Bool := a == b

/-- `WinSpace()`, the window comparator, from TX_BASE and TX_NEXT (R154). -/
def winSpace (base next : BitVec 16) : Bool := (seqDist (seqOf next) (seqOf base)).ult Config.windowSize

/-- `Backlog()`: absolute indices, unsigned on 16 bits (R155). -/
def backlog (next total : BitVec 16) : Bool := next.ult total

/-- `AckMatch(a)` (R156). -/
def ackMatch (a : Byte) (base : BitVec 16) : Bool := seqEq a (seqOf base)

/-- `TotalPkts(L) = ceil(L / 64)` (R157). -/
def totalPkts (len : BitVec 17) : BitVec 16 := BitVec.ofNat 16 ((len.toNat + 63) / 64)

/-- `FragLen(i) = min(64, L - 64 i)` (R158). -/
def fragLen (len : BitVec 17) (i : BitVec 16) : Nat := min Config.maxPayload (len.toNat - 64 * i.toNat)

/-- `FragOff(i) = i << 6`, on 16 bits (R159). -/
def fragOff (i : BitVec 16) : BitVec 16 := i <<< 6

/-- `Slot(i) = i mod 8` (R160). -/
def slot (i : Nat) : Nat := i % 8

/-- `RFLAG[Slot(i)]` (R36). -/
def flagAt (rflag : BitVec 8) (i : BitVec 16) : Bool := rflag.getLsbD (slot i.toNat)

/-- `RFLAG[Slot(k)] <- 1` (R177). -/
def setFlag (rflag : BitVec 8) (k : Nat) : BitVec 8 := rflag ||| (1#8 <<< slot k)

/-- `RFLAG[Slot(k)] <- 0` (R174). -/
def clearFlag (rflag : BitVec 8) (k : Nat) : BitVec 8 := rflag &&& ~~~(1#8 <<< slot k)

/-- `for k in first .. first + n - 1: RFLAG[Slot(k)] <- 1` (R177). -/
def setFlags (rflag : BitVec 8) (first : Nat) : Nat → BitVec 8
  | 0 => rflag
  | n + 1 => setFlags (setFlag rflag first) (first + 1) n

end Sys2Proof.Machine
end

