-- ==== Sys2Proof/Machine/Operands.lean ====
section
/-! DEFINITION. Where operations find their operands (spec/30_encoding.md rule R101): fields of HDR_CFG, positions of a
received frame, the register map of spec/10_state.md rule R49, and the packets the block builds. -/

namespace Sys2Proof.Machine

/-! ## Received frames: positional, no extension (R101) -/

/-- `f[2]`, the receiver's operand. -/
def frameSeq (f : Frame) : Byte := f.getD 2 0

/-- `f[3]`, the sender's operand. -/
def frameAck (f : Frame) : Byte := f.getD 3 0

/-- `f[7..n)`, the payload Decode gives (R101, R131, R212). -/
def framePayload (f : Frame) : List Byte :=
  match decodeFrame f with
  | .pkt p => p.payload
  | .none => []
  | .short => []

/-! ## Header fields (R27) -/

/-- HDR_CFG.SRC_PORT. -/
def srcPort (hdrCfg : Word) : Byte := hdrCfg.extractLsb' 0 8

/-- HDR_CFG.DST_PORT. -/
def dstPort (hdrCfg : Word) : Byte := hdrCfg.extractLsb' 8 8

/-- HDR_CFG.HDR_LEN. -/
def hdrLen (hdrCfg : Word) : Byte := hdrCfg.extractLsb' 16 8

/-- HDR_CFG.WND_ADV. -/
def wndAdv (hdrCfg : Word) : Byte := hdrCfg.extractLsb' 24 8

/-! ## The packets the block builds -/

/-- `DataPacket(i)` with its payload already read (R171). -/
def dataPacket (s : State) (i : BitVec 16) (payload : List Byte) : Packet where
  sourcePort := (srcPort s.hdrCfg).toNat
  destPort := (dstPort s.hdrCfg).toNat
  seq := (seqOf i).toNat
  ack := 0
  headerLength := (hdrLen s.hdrCfg).toNat
  windowSize := (wndAdv s.hdrCfg).toNat
  retransmitFlag := (flagAt s.rflag i).toNat
  payload := payload

/-- `AckPacket(n)` (R211). -/
def ackPacket (s : State) (n : Byte) : Packet where
  sourcePort := (srcPort s.hdrCfg).toNat
  destPort := (dstPort s.hdrCfg).toNat
  seq := 0
  ack := n.toNat
  headerLength := (hdrLen s.hdrCfg).toNat
  windowSize := (wndAdv s.hdrCfg).toNat
  retransmitFlag := 0
  payload := if s.ackZlp then [] else List.replicate 64 s.ackFill

/-! ## The register map (R49) -/

/-- The 3-bit encoding of STATE (R21). -/
def Phase.code : Phase → BitVec 3
  | .idle => 0
  | .sending => 1
  | .sendDone => 2
  | .receiving => 3
  | .recvDone => 4

/-- The register at an offset of the register window; none at a reserved offset (R44, R49). -/
def regAt (off : BitVec 16) : Option Reg :=
  match off.toNat with
  | 0x000 => some .ctrl
  | 0x004 => some .cmd
  | 0x008 => some .status
  | 0x00C => some .irqStatus
  | 0x010 => some .irqEnable
  | 0x014 => some .hdrCfg
  | 0x018 => some .ackFill
  | 0x01C => some .rto
  | 0x020 => some .timerCount
  | 0x024 => some .txLen
  | 0x028 => some .txTotal
  | 0x02C => some .txBase
  | 0x030 => some .txNext
  | 0x034 => some .txRflag
  | 0x038 => some .rxExpected
  | 0x03C => some .rxLen
  | 0x040 => some .rxLastack
  | 0x044 => some .txFrames
  | 0x048 => some .rxFrames
  | 0x04C => some .timeouts
  | _ => none

/-- STATUS = LAST_OP in 15:8, TIMER_ACTIVE in 3, STATE in 2:0 (R24). -/
def statusWord (s : State) : Word :=
  (s.lastOp.setWidth 32 <<< 8) ||| (if s.tmrAct then 8#32 else 0#32) ||| s.phase.code.setWidth 32

/-- RX_LASTACK: byte 3 of LA, or 0 when LA is NONE (R39). -/
def lastAckByte (s : State) : Byte :=
  match s.la with
  | none => 0
  | some f => frameAck f

/-- What a read of a register returns: reserved bits 0, and 0 for CMD (R22 to R44, R241). -/
def regValue (s : State) : Reg → Word
  | .ctrl => if s.ackZlp then 1 else 0
  | .cmd => 0
  | .status => statusWord s
  | .irqStatus => s.irqStatus.setWidth 32
  | .irqEnable => s.irqEnable.setWidth 32
  | .hdrCfg => s.hdrCfg
  | .ackFill => s.ackFill.setWidth 32
  | .rto => s.rto
  | .timerCount => s.tmrCnt
  | .txLen => s.txLen.setWidth 32
  | .txTotal => s.txTotal.setWidth 32
  | .txBase => s.txBase.setWidth 32
  | .txNext => s.txNext.setWidth 32
  | .txRflag => s.rflag.setWidth 32
  | .rxExpected => s.rxExpected.setWidth 32
  | .rxLen => s.rxLen.setWidth 32
  | .rxLastack => (lastAckByte s).setWidth 32
  | .txFrames => s.txFrames
  | .rxFrames => s.rxFrames
  | .timeouts => s.timeouts

/-- The value at an offset of the register window; a reserved offset reads 0 (R44). -/
def regValueAt (s : State) (off : BitVec 16) : Word :=
  match regAt off with
  | some r => regValue s r
  | none => 0

/-- The offset of a platform address in the block's window at `P_BASE` (R61), if it lies there. -/
def windowOffset (addr : Nat) : Option (BitVec 18) :=
  if Config.pBase ≤ addr ∧ addr < Config.pBase + 2 ^ 18 then some (BitVec.ofNat 18 (addr - Config.pBase)) else none

end Sys2Proof.Machine
end

