-- ==== Sys2Proof/Machine/Flags.lean ====
section
/-! DEFINITION. The conditions computed from the state: the irq level (spec/10_state.md rule R47), which commands may
start (spec/44_host.md rule R247), and which engine operation each input enables (spec/30_encoding.md rule R99). -/

namespace Sys2Proof.Machine

/-- The `irq` output (R47). -/
def State.irq (s : State) : Bool := s.irqStatus &&& s.irqEnable != 0

/-- STATE is IDLE, SEND_DONE or RECV_DONE: no transfer runs (R247). -/
def State.stopped (s : State) : Bool := s.phase != .sending && s.phase != .receiving

/-- TX_START is legal: no transfer runs and `TX_LEN <= P_TXBUF_BYTES` (R170, R247). -/
def State.mayStartTx (s : State) : Bool := s.stopped && decide (s.txLen.toNat ≤ s.params.txbufBytes)

/-- RX_START is legal (R210, R247). -/
def State.mayStartRx (s : State) : Bool := s.stopped

/-- TX_SEND is enabled (R99, R172). -/
def State.txSendEnabled (s : State) : Bool :=
  s.phase == .sending && winSpace s.txBase s.txNext && backlog s.txNext s.txTotal && s.ready

/-- `Classify_frame(STATE, f)` (R99). -/
def classifyFrame (s : State) (f : Frame) : Instr :=
  if s.stopped then .frameStray
  else
    match classOf f with
    | .closeMarker => if s.phase = .sending then .sndPeerClosed else .rxPeerClose
    | .short => .frameShort
    | .oversize => .frameOversize
    | .packet =>
      if s.phase = .sending then
        if ackMatch (frameAck f) s.txBase then .ackAccept else .ackIgnore
      else if seqEq (frameSeq f) s.rxExpected then .rxAccept else .rxDupack

/-- `Classify_tick(STATE)` (R99). -/
def classifyTick (s : State) : Instr :=
  if s.phase = .sending ∧ s.tmrAct = true ∧ s.txBase ≠ s.txNext then
    if s.tmrCnt.toNat ≤ 1 then .timerExpire else .tickCount
  else .tickIdle

/-- The operations that emit a frame wait for `ready` (R77). -/
def needsReady (i : Instr) : Bool := i == .txSend || i == .rxAccept || i == .rxDupack

/-- The head frame, if the operation `i` is enabled for it (R99: the operations of the receiver that emit are enabled
only while link-out ready is 1). -/
def enabledFrame (i : Instr) (s : State) : Option Frame :=
  match s.linkIn with
  | [] => none
  | f :: _ => if classifyFrame s f = i ∧ (needsReady i = true → s.ready = true) then some f else none

end Sys2Proof.Machine
end

