-- ==== Sys2Proof/Machine/Frames.lean ====
section
/-! DEFINITION. Operations on the head frame of link-in: how an operation takes it, and the three that discard it
(spec/40_codec.md rules R134 to R136). -/

namespace Sys2Proof.Machine

/-- An engine operation on the head frame (R76, R99): where `i` is enabled the head is consumed and `effect` acts on it
and on the state after `consume()`; where it is not, the operation is not taken. -/
def onHeadFrame (i : Instr) (effect : Frame → State → Result) (s : State) : Result :=
  match enabledFrame i s with
  | some f => effect f (consume s)
  | none => hold s

/-- Discard a frame: its event, with its length, and LAST_OP (R134, R135, R136). -/
def discard (e : Event) (code : Byte) (f : Frame) (s : State) : Result :=
  .next (recordOp code (raise e (some f.length) s))

/-- FRAME_SHORT (R134). -/
def execFrameShort (s : State) : Result := onHeadFrame .frameShort (discard .shortFrame 0x30) s

/-- FRAME_OVERSIZE (R135). -/
def execFrameOversize (s : State) : Result := onHeadFrame .frameOversize (discard .oversizeFrame 0x31) s

/-- FRAME_STRAY (R136). -/
def execFrameStray (s : State) : Result := onHeadFrame .frameStray (discard .strayFrame 0x32) s

end Sys2Proof.Machine
end

