-- ==== Sys2Proof/Machine/Receiver.lean ====
section
/-! DEFINITION. The receiver engine: RX_START's effect, RX_ACCEPT, RX_DUPACK, RX_PEER_CLOSE and the reassembly
(spec/43_receiver.md rules R210 to R215). -/

namespace Sys2Proof.Machine

/-- RX_START where it is legal: the initial ack is built once, here, and not emitted (R210). -/
def rxStart (s : State) : Result :=
  withEncoded (ackPacket s Config.initialAck) fun a =>
    .next (recordOp 0x02 (clearCounters { s with rxExpected := 0, rxLen := 0, la := some a, phase := .receiving }))

/-- The loop of `Append` (R215): the buffer, RX_LEN, and whether a byte was dropped. -/
def appendBytes (limit : Nat) : List Byte → Memory → BitVec 17 → Memory × BitVec 17 × Bool
  | [], m, len => (m, len, false)
  | b :: bs, m, len =>
    if len.toNat < limit then appendBytes limit bs (Memory.write m len.toNat b) (len + 1)
    else
      let rest := appendBytes limit bs m len
      (rest.1, rest.2.1, true)

/-- `Append(payload)` (R215). -/
def append (payload : List Byte) (s : State) : State :=
  let r := appendBytes s.params.rxbufBytes payload s.rxbuf s.rxLen
  let stored := { s with rxbuf := r.1, rxLen := r.2.1 }
  if r.2.2 then raise .rxOverflow none stored else stored

/-- RX_ACCEPT after `consume()`: append, acknowledge, advance, remember the ack (R212). -/
def rxAccept (f : Frame) (s : State) : Result :=
  withEncoded (ackPacket s s.rxExpected) fun a =>
    .next (recordOp 0x20
      { emit a (append (framePayload f) s) with rxExpected := seqInc s.rxExpected, la := some a })

/-- RX_DUPACK after `consume()`: "resend last_ack_sent verbatim" (R213). -/
def rxDupack (s : State) : Result :=
  match s.la with
  | some a => .next (recordOp 0x21 (emit a s))
  | none => .fault .lastAckMissing

/-- RX_ACCEPT (R212). -/
def execRxAccept (s : State) : Result := onHeadFrame .rxAccept rxAccept s

/-- RX_DUPACK (R213). -/
def execRxDupack (s : State) : Result := onHeadFrame .rxDupack (fun _ t => rxDupack t) s

/-- RX_PEER_CLOSE: it does not wait for ready (R214). -/
def execRxPeerClose (s : State) : Result :=
  onHeadFrame .rxPeerClose (fun _ t => .next (recordOp 0x22 (raise .rxDone none { t with phase := .recvDone }))) s

end Sys2Proof.Machine
end

