-- ==== Sys2Proof/Machine/Sender.lean ====
section
/-! DEFINITION. The sender engine: TX_START's effect, TX_SEND, the acknowledgment listener and the retransmission timer
(spec/42_sender.md rules R170 to R179). -/

namespace Sys2Proof.Machine

/-- The window, the timer, the flags and the counters at the start of a transfer of TX_LEN bytes (R170). -/
def openWindow (s : State) : State :=
  clearCounters (disarmTimer { s with txTotal := totalPkts s.txLen, txBase := 0, txNext := 0, rflag := 0 })

/-- "if TX_TOTAL == 0: STATE <- SEND_DONE; raise TX_DONE, else: STATE <- SENDING" (R170). -/
def enterSending (s : State) : State :=
  if s.txTotal = 0 then raise .txDone none { s with phase := .sendDone } else { s with phase := .sending }

/-- TX_START where it is legal (R170). -/
def txStart (s : State) : State := recordOp 0x01 (enterSending (openWindow s))

/-- TX_SEND once its frame is built: the frame goes out, TX_NEXT advances, and a window that was empty arms the timer
(R172). -/
def sendFrame (f : Frame) (s : State) : State :=
  let sent := { emit f s with txNext := s.txNext + 1 }
  recordOp 0x10 (if s.txBase = s.txNext then armTimer sent else sent)

/-- TX_SEND where it is enabled: one packet, its payload read from TXBUF in this step (R171, R172). -/
def txSend (s : State) : Result :=
  match readBytes .txbuf s.txbuf (fragOff s.txNext).toNat (fragLen s.txLen s.txNext) with
  | .error f => .fault f
  | .ok payload => withEncoded (dataPacket s s.txNext payload) fun f => .next (sendFrame f s)

/-- The acknowledged packet's slot is cleared and TX_BASE "advances by one" (R174). -/
def advanceBase (s : State) : State :=
  { s with rflag := clearFlag s.rflag s.txBase.toNat, txBase := s.txBase + 1 }

/-- A late ack after a timeout: TX_NEXT never falls behind TX_BASE (R174, 90_conflicts.md C3). -/
def raiseNext (s : State) : State := if s.txNext.ult s.txBase then { s with txNext := s.txBase } else s

/-- Disarm the timer if the window is empty, else reset its deadline (R174). -/
def retimeWindow (s : State) : State := if s.txBase = s.txNext then disarmTimer s else armTimer s

/-- "once base == total_packets, stop both activities" (R174, R180). -/
def finishSending (s : State) : State :=
  if s.txBase = s.txTotal then raise .txDone none { s with phase := .sendDone } else s

/-- ACK_ACCEPT after `consume()`: the cumulative-ack accumulator advances the window by one (R174). -/
def ackAccept (s : State) : State := recordOp 0x11 (finishSending (retimeWindow (raiseNext (advanceBase s))))

/-- "mark every packet from base to next_to_send-1 with retransmit_flag", then "reset next_to_send = base" (R177). -/
def rewindWindow (s : State) : State :=
  { s with rflag := setFlags s.rflag s.txBase.toNat (s.txNext.toNat - s.txBase.toNat), txNext := s.txBase }

/-- TIMER_EXPIRE: the Go-Back-N timeout (R177). -/
def timerExpire (s : State) : State :=
  recordOp 0x14 (disarmTimer { rewindWindow s with timeouts := s.timeouts + 1 })

/-- TX_SEND (R172). -/
def execTxSend (s : State) : Result := if s.txSendEnabled then txSend s else hold s

/-- ACK_ACCEPT (R174). -/
def execAckAccept (s : State) : Result := onHeadFrame .ackAccept (fun _ t => .next (ackAccept t)) s

/-- ACK_IGNORE (R175). -/
def execAckIgnore (s : State) : Result := onHeadFrame .ackIgnore (fun _ t => .next (recordOp 0x12 t)) s

/-- SND_PEER_CLOSED (R179). -/
def execSndPeerClosed (s : State) : Result :=
  onHeadFrame .sndPeerClosed (fun _ t => .next (recordOp 0x16 (raise .peerClosed none t))) s

/-- TICK_COUNT: a tick with this operation (R176). It is not recorded in LAST_OP (R43). -/
def execTickCount (s : State) : Result :=
  if classifyTick s = .tickCount then .next { s with tmrCnt := s.tmrCnt - 1 } else hold s

/-- TIMER_EXPIRE: a tick with this operation (R177). -/
def execTimerExpire (s : State) : Result :=
  if classifyTick s = .timerExpire then .next (timerExpire s) else hold s

/-- TICK_IDLE: the tick is consumed and nothing changes (R178). -/
def execTickIdle (s : State) : Result := .next s

end Sys2Proof.Machine
end

