-- ==== Sys2Proof/Machine/Commands.lean ====
section
/-! DEFINITION. The commands a host write of CMD runs (spec/44_host.md rules R247 to R250), for the rows of format CMD
(the word written) and for the command rows of format OP (the operation that write runs, notes/assumptions/4.md). -/

namespace Sys2Proof.Machine

/-- NOP (R248). -/
def commandNop (s : State) : State := recordOp 0x00 s

/-- CLOSE (R249). -/
def commandClose (s : State) : State := recordOp 0x03 (disarmTimer { s with phase := .idle })

/-- ILLEGAL_CMD, with the refused word where there is one (R250). -/
def commandIllegal (word : Option Nat) (s : State) : State := recordOp 0x0F (raise .illegalCmd word s)

/-- `RunCommand(w)` (R247). -/
def runCommand (w : Word) (s : State) : Result :=
  match w.toNat with
  | 0 => .next (commandNop s)
  | 1 => if s.mayStartTx then .next (txStart s) else .next (commandIllegal (some w.toNat) s)
  | 2 => if s.mayStartRx then rxStart s else .next (commandIllegal (some w.toNat) s)
  | 3 => .next (commandClose s)
  | _ => .next (commandIllegal (some w.toNat) s)

/-- The host writes `w` to CMD: a legal access that runs the command in the same step (R23, R242). -/
def writeCmd (w : Word) (s : State) : Result := runCommand w (respond .writeDone s)

/-- Command word 0x00000000 (R248). -/
def execCmdNop (s : State) : Result := writeCmd 0x00000000 s

/-- Command word 0x00000001 (R170). -/
def execCmdTxStart (s : State) : Result := writeCmd 0x00000001 s

/-- Command word 0x00000002 (R210). -/
def execCmdRxStart (s : State) : Result := writeCmd 0x00000002 s

/-- Command word 0x00000003 (R249). -/
def execCmdClose (s : State) : Result := writeCmd 0x00000003 s

/-- Any other command word (R250). -/
def execCmdIllegal (w : Word) (s : State) : Result := writeCmd w s

/-- Operation 0x00, run by a CMD write (R248). -/
def execNop (s : State) : Result := .next (commandNop (respond .writeDone s))

/-- Operation 0x01, run by a CMD write where R247 lets it (R170). -/
def execTxStart (s : State) : Result := if s.mayStartTx then .next (txStart (respond .writeDone s)) else hold s

/-- Operation 0x02, run by a CMD write where R247 lets it (R210). -/
def execRxStart (s : State) : Result := if s.mayStartRx then rxStart (respond .writeDone s) else hold s

/-- Operation 0x03, run by a CMD write (R249). -/
def execClose (s : State) : Result := .next (commandClose (respond .writeDone s))

/-- Operation 0x0F, run by a CMD write of a word R247 refuses; the row does not say which word (R250). -/
def execIllegalCmd (s : State) : Result := .next (commandIllegal none (respond .writeDone s))

end Sys2Proof.Machine
end

