-- ==== Sys2Proof/Machine/HostBus.lean ====
section
/-! DEFINITION. The host bus operations (spec/44_host.md rules R240 to R246). Each access is one step, atomic with
respect to every engine operation (R240), and answers the host through `resp`. -/

namespace Sys2Proof.Machine

/-- BUS_ERROR: the error response, `rdata` 0 for a read, no state change (R69, R246). -/
def busError (we : Bool) (s : State) : Result :=
  .next (respond (if we then .writeError else .readError 0) s)

/-- A buffer access of `n` bytes at `o` is legal: naturally aligned, and wholly inside the buffer (R64, R66, R67). -/
def inBuffer (o : BitVec 16) (n limit : Nat) : Bool := o.toNat % n == 0 && decide (o.toNat + n ≤ limit)

/-- A read of `n` bytes of a buffer, little-endian and zero-extended (R243, R245). -/
def bufferRead (space : Space) (m : Memory) (limit : Nat) (o : BitVec 16) (n : Nat) (s : State) : Result :=
  if inBuffer o n limit then
    match readBytes space m o.toNat n with
    | .ok bs => .next (respond (.readDone (leValue bs)) s)
    | .error f => .fault f
  else busError false s

/-- A read of TXBUF (R243). -/
def txbufRead (n : Nat) (o : BitVec 16) (s : State) : Result := bufferRead .txbuf s.txbuf s.params.txbufBytes o n s

/-- A read of RXBUF (R245). -/
def rxbufRead (n : Nat) (o : BitVec 16) (s : State) : Result := bufferRead .rxbuf s.rxbuf s.params.rxbufBytes o n s

/-- A write of `n` bytes of TXBUF, accepted in every STATE (R244). -/
def txbufWrite (n : Nat) (o : BitVec 16) (wdata : Word) (s : State) : Result :=
  if inBuffer o n s.params.txbufBytes then
    .next (respond .writeDone { s with txbuf := writeBytes s.txbuf o.toNat (leBytes wdata n) })
  else busError true s

/-- What a write does to each register (R242): "no effect" on the read-only ones. -/
def writeReg (r : Reg) (wdata : Word) (s : State) : Result :=
  match r with
  | .ctrl => .next { s with ackZlp := wdata.getLsbD 0 }
  | .cmd => runCommand wdata s
  | .irqStatus => .next (clearEvents (wdata.setWidth 8) s)
  | .irqEnable => .next { s with irqEnable := wdata.setWidth 8 }
  | .hdrCfg => .next { s with hdrCfg := wdata }
  | .ackFill => .next { s with ackFill := wdata.setWidth 8 }
  | .rto => .next { s with rto := wdata }
  | .txLen => .next (if s.phase = .sending then s else { s with txLen := wdata.setWidth 17 })
  | .status | .timerCount | .txTotal | .txBase | .txNext | .txRflag | .rxExpected | .rxLen | .rxLastack
  | .txFrames | .rxFrames | .timeouts => .next s

/-- REG_READ: "none" written but the response (R241). -/
def execRegRead (off : BitVec 16) (s : State) : Result :=
  if aligned 2 off then .next (respond (.readDone (regValueAt s off)) s) else busError false s

/-- REG_WRITE; a write of a reserved offset is ignored (R44, R242). -/
def execRegWrite (off : BitVec 16) (wdata : Word) (s : State) : Result :=
  if aligned 2 off then
    match regAt off with
    | some r => writeReg r wdata (respond .writeDone s)
    | none => .next (respond .writeDone s)
  else busError true s

/-- TXBUF_RD8 (R243). -/
def execTxbufRd8 (o : BitVec 16) (s : State) : Result := txbufRead 1 o s

/-- TXBUF_RD16 (R243). -/
def execTxbufRd16 (o : BitVec 16) (s : State) : Result := txbufRead 2 o s

/-- TXBUF_RD32 (R243). -/
def execTxbufRd32 (o : BitVec 16) (s : State) : Result := txbufRead 4 o s

/-- TXBUF_WR8 (R244). -/
def execTxbufWr8 (o : BitVec 16) (wdata : Word) (s : State) : Result := txbufWrite 1 o wdata s

/-- TXBUF_WR16 (R244). -/
def execTxbufWr16 (o : BitVec 16) (wdata : Word) (s : State) : Result := txbufWrite 2 o wdata s

/-- TXBUF_WR32 (R244). -/
def execTxbufWr32 (o : BitVec 16) (wdata : Word) (s : State) : Result := txbufWrite 4 o wdata s

/-- RXBUF_RD8 (R245). -/
def execRxbufRd8 (o : BitVec 16) (s : State) : Result := rxbufRead 1 o s

/-- RXBUF_RD16 (R245). -/
def execRxbufRd16 (o : BitVec 16) (s : State) : Result := rxbufRead 2 o s

/-- RXBUF_RD32 (R245). -/
def execRxbufRd32 (o : BitVec 16) (s : State) : Result := rxbufRead 4 o s

/-- BUS_ERROR of a descriptor that no other row takes (R246). -/
def execBusError (we : Bool) (_sz : BitVec 2) (_off : BitVec 18) (s : State) : Result := busError we s

end Sys2Proof.Machine
end

