-- ==== Sys2Proof/Machine/Dispatch.lean ====
section
/-! DEFINITION. The meaning of every instruction: one arm per constructor, each one direct call. -/

namespace Sys2Proof.Machine

def exec (i : Instr) (s : State) : Host.Outcome State Fault Refusal :=
  match i with
  -- format CMD
  | .cmdNop => Sys2Proof.Machine.execCmdNop s
  | .cmdTxStart => Sys2Proof.Machine.execCmdTxStart s
  | .cmdRxStart => Sys2Proof.Machine.execCmdRxStart s
  | .cmdClose => Sys2Proof.Machine.execCmdClose s
  | .cmdIllegal w => Sys2Proof.Machine.execCmdIllegal w s
  -- format OP
  | .nop => Sys2Proof.Machine.execNop s
  | .txStart => Sys2Proof.Machine.execTxStart s
  | .rxStart => Sys2Proof.Machine.execRxStart s
  | .close => Sys2Proof.Machine.execClose s
  | .illegalCmd => Sys2Proof.Machine.execIllegalCmd s
  | .txSend => Sys2Proof.Machine.execTxSend s
  | .ackAccept => Sys2Proof.Machine.execAckAccept s
  | .ackIgnore => Sys2Proof.Machine.execAckIgnore s
  | .tickCount => Sys2Proof.Machine.execTickCount s
  | .timerExpire => Sys2Proof.Machine.execTimerExpire s
  | .tickIdle => Sys2Proof.Machine.execTickIdle s
  | .sndPeerClosed => Sys2Proof.Machine.execSndPeerClosed s
  | .rxAccept => Sys2Proof.Machine.execRxAccept s
  | .rxDupack => Sys2Proof.Machine.execRxDupack s
  | .rxPeerClose => Sys2Proof.Machine.execRxPeerClose s
  | .frameShort => Sys2Proof.Machine.execFrameShort s
  | .frameOversize => Sys2Proof.Machine.execFrameOversize s
  | .frameStray => Sys2Proof.Machine.execFrameStray s
  -- format HREQ
  | .regRead off => Sys2Proof.Machine.execRegRead off s
  | .regWrite off wdata => Sys2Proof.Machine.execRegWrite off wdata s
  | .txbufRd8 o => Sys2Proof.Machine.execTxbufRd8 o s
  | .txbufRd16 o => Sys2Proof.Machine.execTxbufRd16 o s
  | .txbufRd32 o => Sys2Proof.Machine.execTxbufRd32 o s
  | .txbufWr8 o wdata => Sys2Proof.Machine.execTxbufWr8 o wdata s
  | .txbufWr16 o wdata => Sys2Proof.Machine.execTxbufWr16 o wdata s
  | .txbufWr32 o wdata => Sys2Proof.Machine.execTxbufWr32 o wdata s
  | .rxbufRd8 o => Sys2Proof.Machine.execRxbufRd8 o s
  | .rxbufRd16 o => Sys2Proof.Machine.execRxbufRd16 o s
  | .rxbufRd32 o => Sys2Proof.Machine.execRxbufRd32 o s
  | .busError we sz off => Sys2Proof.Machine.execBusError we sz off s

end Sys2Proof.Machine
end

