-- ==== Sys2Proof/Machine/Link.lean ====
section
/-! DEFINITION. The steps of the agents outside the block: LINK (spec/20_memory.md rules R76 to R78) and RESET
(spec/70_reset_and_hazards.md rules R300 to R302). -/

namespace Sys2Proof.Machine

/-- LINK appends a frame, of any bytes and any length, to link-in (R76, R78). -/
def deliver (f : Frame) (s : State) : State := { s with linkIn := s.linkIn ++ [f] }

/-- LINK takes the oldest frame off link-out (R12). -/
def takeOldest (s : State) : State := { s with linkOut := s.linkOut.tail }

/-- LINK discards the frame emitted last (DROP of R102). -/
def dropNewest (s : State) : State := { s with linkOut := s.linkOut.dropLast }

/-- LINK drives the ready level (R77). -/
def setReady (level : Bool) (s : State) : State := { s with ready := level }

/-- RESET: every register of 10_state.md at its reset value and LA NONE (R300). The buffers keep their bytes (R300),
reset does not touch the link (R302), and the parameters and the model's own fields are no registers. -/
def applyReset (s : State) : State :=
  { State.reset with
    txbuf := s.txbuf, rxbuf := s.rxbuf, params := s.params, linkIn := s.linkIn, linkOut := s.linkOut, ready := s.ready,
    resp := s.resp, events := s.events, agenda := s.agenda, choiceIdx := s.choiceIdx }

end Sys2Proof.Machine
end

