-- ==== Sys2Proof/Machine/Schedule.lean ====
section
/-! DEFINITION. Which operation the engine takes on a turn of its own (spec/30_encoding.md rule R99, spec/42_sender.md
rule R181). -/

namespace Sys2Proof.Machine

/-- The operation the head frame enables, if there is a head frame and link-out does not hold it (R99). -/
def frameChoice (s : State) : Option Instr :=
  match s.linkIn with
  | [] => none
  | f :: _ =>
    let i := classifyFrame s f
    if needsReady i = true ∧ s.ready = false then none else some i

/-- The engine's enabled operations that need no tick (R99). -/
def engineEnabled (s : State) : List Instr :=
  (if s.txSendEnabled then [Instr.txSend] else []) ++ (frameChoice s).toList

/-- The engine's choice: nothing enabled, none; one operation enabled, that one; two, the free value decides, and the
next open choice is a new one (R181, S16, notes/assumptions/2.md). -/
def engineSelect (s : State) : Option Instr × State :=
  match s.txSendEnabled, frameChoice s with
  | false, none => (none, s)
  | true, none => (some .txSend, s)
  | false, some i => (some i, s)
  | true, some i =>
    (some (if Config.engineChoice s.choiceIdx then .txSend else i), { s with choiceIdx := s.choiceIdx + 1 })

end Sys2Proof.Machine
end

