-- ==== Sys2Proof/Machine/Step.lean ====
section
/-! DEFINITION. One step of the machine: the next turn of the schedule, by the agent it names (spec/00_scope.md rules
R11 and R12, spec/42_sender.md rule R181). -/

namespace Sys2Proof.Machine

/-- An encoded input is decoded and run. -/
def inputTurn (r : RawInput) (s : State) : Host.Outcome State Fault Refusal :=
  match decode r with
  | .ok i => exec i s
  | .error e => .refused (.undecodable e)

/-- The engine moves of its own choice; with nothing enabled it waits. -/
def engineTurn (s : State) : Host.Outcome State Fault Refusal :=
  match engineSelect s with
  | (some i, t) => exec i t
  | (none, t) => hold t

/-- The step of the agent a turn names, from the state with that turn taken off the agenda. -/
def runTurn (t : Turn) (s : State) : Host.Outcome State Fault Refusal :=
  match t with
  | .input r => inputTurn r s
  | .tick => exec (classifyTick s) s
  | .engine => engineTurn s
  | .deliver f => .next (deliver f s)
  | .take => .next (takeOldest s)
  | .drop => .next (dropNewest s)
  | .setReady level => .next (setReady level s)
  | .reset => .next (applyReset s)

/-- One step. With no turn left on the agenda the engine moves by itself (notes/assumptions/2.md). -/
def step (s : State) : Host.Outcome State Fault Refusal :=
  match s.agenda with
  | [] => engineTurn s
  | t :: rest => runTurn t { s with agenda := rest }

/-- `s` with the input of `nbits` bits `w` (numbered as the opcode table numbers them) as the very next turn: the
block fetches nothing (R60, R301), so this stands for the agent that presents it (notes/assumptions/16.md). -/
def State.withFetchWord (s : State) (nbits w : Nat) : State :=
  { s with agenda := .input (tableInput nbits w) :: s.agenda }

end Sys2Proof.Machine
end

