-- ==== Sys2Proof/Laws/Codec.lean ====
section
/-! SUPPORT. The codec's spec lemmas: when Encode answers a frame and of what length, what Decode reads of it, and that
the packets the block builds are never refused (spec/40_codec.md rules R130, R131, R133). -/

namespace Sys2Proof.Machine

@[simp] theorem headerOf_length (p : Packet) : (headerOf p).length = 7 := rfl

theorem encodePacket_ok {p : Packet} (h : p.payload.length ≤ 64) : encodePacket p = .ok (headerOf p ++ p.payload) :=
  if_pos h

theorem encodePacket_error {p : Packet} (h : 64 < p.payload.length) : encodePacket p = .error .encodeOversizePayload :=
  if_neg (Nat.not_le.2 h)

/-- Encode answers a frame of 7 to 71 bytes or refuses. -/
theorem encodePacket_length {p : Packet} {f : Frame} (h : encodePacket p = .ok f) :
    f.length = 7 + p.payload.length ∧ 7 ≤ f.length ∧ f.length ≤ 71 := by
  unfold encodePacket at h
  split at h
  · next hp =>
    injection h with h
    subst h
    rw [List.length_append, headerOf_length]
    unfold Config.maxPayload at hp
    omega
  · cases h

theorem withEncoded_ok {p : Packet} (use : Frame → Result) (h : p.payload.length ≤ 64) :
    withEncoded p use = use (headerOf p ++ p.payload) := by
  rw [withEncoded, encodePacket_ok h]

/-- The payload of an ack packet is 64 filler bytes or empty (R211). -/
theorem ackPacket_payload_length (s : State) (n : Byte) : (ackPacket s n).payload.length ≤ 64 := by
  unfold ackPacket
  dsimp only
  split <;> simp

/-- The ack frame of the block, written out (R211). -/
def ackFrame (s : State) (n : Byte) : Frame := headerOf (ackPacket s n) ++ (ackPacket s n).payload

theorem withEncoded_ackPacket (s : State) (n : Byte) (use : Frame → Result) :
    withEncoded (ackPacket s n) use = use (ackFrame s n) :=
  withEncoded_ok use (ackPacket_payload_length s n)

theorem ackFrame_length (s : State) (n : Byte) : 7 ≤ (ackFrame s n).length ∧ (ackFrame s n).length ≤ 71 := by
  have := ackPacket_payload_length s n
  simp only [ackFrame, List.length_append, headerOf_length]
  omega

@[simp] theorem lowByte_toNat (b : Byte) : lowByte b.toNat = b := by simp [lowByte]

@[simp] theorem lowByte_toNat_mod (v : Nat) : (lowByte v).toNat = v % 256 := by simp [lowByte]

/-- Byte 3 of the ack frame is the number acknowledged (R211). -/
@[simp] theorem frameAck_ackFrame (s : State) (n : Byte) : frameAck (ackFrame s n) = n := by
  simp [frameAck, ackFrame, headerOf, ackPacket]

/-- Decode reads the seven header bytes positionally and takes the rest as payload (R131). -/
theorem decodeFrame_headerOf_append (p : Packet) (payload : List Byte) :
    decodeFrame (headerOf p ++ payload) =
      .pkt { sourcePort := p.sourcePort % 256, destPort := p.destPort % 256, seq := p.seq % 256, ack := p.ack % 256,
             headerLength := p.headerLength % 256, windowSize := p.windowSize % 256,
             retransmitFlag := p.retransmitFlag % 2, payload := payload } := by
  have : p.retransmitFlag % 2 % 256 = p.retransmitFlag % 2 := Nat.mod_eq_of_lt (by omega)
  simp [headerOf, decodeFrame, this]

theorem framePayload_eq_drop {f : Frame} (h : 7 ≤ f.length) : framePayload f = f.drop 7 := by
  match f, h with
  | b0 :: b1 :: b2 :: b3 :: b4 :: b5 :: b6 :: payload, _ => rfl

/-! ## Frame classes (R93) -/

theorem classOf_closeMarker_iff (f : Frame) : classOf f = .closeMarker ↔ f = [] := by
  cases f <;> simp [classOf]
  split <;> [simp; split <;> simp]

theorem classOf_short_iff (f : Frame) : classOf f = .short ↔ 1 ≤ f.length ∧ f.length ≤ 6 := by
  unfold classOf Config.headerBytes Config.maxFrame
  split_ifs <;> simp <;> omega

theorem classOf_packet_iff (f : Frame) : classOf f = .packet ↔ 7 ≤ f.length ∧ f.length ≤ 71 := by
  unfold classOf Config.headerBytes Config.maxFrame
  split_ifs <;> simp <;> omega

theorem classOf_oversize_iff (f : Frame) : classOf f = .oversize ↔ 72 ≤ f.length := by
  unfold classOf Config.headerBytes Config.maxFrame
  split_ifs <;> simp <;> omega

end Sys2Proof.Machine
end

