-- ==== Sys2Proof/Laws/Memory.lean ====
section
/-! SUPPORT. The laws of the buffers: a read after a write, what a write leaves alone, and that every write keeps the
canonical form (notes/assumptions/11.md). -/

namespace Sys2Proof.Machine

theorem Memory.read_write_same (m : Memory) (a : Nat) (v : Byte) :
    Memory.read (Memory.write m a v) a = some v := by
  induction m with
  | nil => simp [Memory.write, Memory.read]
  | cons c m ih =>
    obtain ⟨b, w⟩ := c
    simp only [Memory.write]
    split
    · simp [Memory.read]
    · split
      · simp [Memory.read]
      · simp [Memory.read, ih]; omega

theorem Memory.read_write_other (m : Memory) {a a' : Nat} (v : Byte) (h : a' ≠ a) :
    Memory.read (Memory.write m a v) a' = Memory.read m a' := by
  induction m with
  | nil => simp [Memory.write, Memory.read, Ne.symm h]
  | cons c m ih =>
    obtain ⟨b, w⟩ := c
    simp only [Memory.write]
    split
    · simp [Memory.read, Ne.symm h]
    · split
      · next hb => subst hb; simp [Memory.read, Ne.symm h]
      · simp [Memory.read, ih]

/-- A write adds one entry and takes none that was not there. -/
theorem Memory.mem_write {m : Memory} {a : Nat} {v : Byte} {c : Host.Cell} (h : c ∈ Memory.write m a v) :
    c = (a, v) ∨ c ∈ m := by
  induction m with
  | nil => simpa [Memory.write] using h
  | cons d m ih =>
    obtain ⟨b, w⟩ := d
    simp only [Memory.write] at h
    split at h
    · simpa using h
    · split at h
      · rcases List.mem_cons.1 h with h | h
        · exact .inl h
        · exact .inr (List.mem_cons_of_mem _ h)
      · rcases List.mem_cons.1 h with h | h
        · exact .inr (h ▸ List.mem_cons_self ..)
        · exact (ih h).imp id (List.mem_cons_of_mem _)

/-- The canonical form is that the offsets rise pairwise. -/
theorem Memory.wf_iff_pairwise (m : Memory) : Memory.wf m = true ↔ m.Pairwise (fun c d => c.1 < d.1) := by
  induction m with
  | nil => simp [Memory.wf]
  | cons c m ih =>
    cases m with
    | nil => simp [Memory.wf]
    | cons d m =>
      rw [Memory.wf, Bool.and_eq_true, ih, decide_eq_true_eq]
      constructor
      · rintro ⟨hcd, hd⟩
        refine List.pairwise_cons.2 ⟨fun e he => ?_, hd⟩
        rcases List.mem_cons.1 he with rfl | he
        · exact hcd
        · exact lt_trans hcd ((List.pairwise_cons.1 hd).1 e he)
      · intro h
        obtain ⟨hc, hd⟩ := List.pairwise_cons.1 h
        exact ⟨hc d (List.mem_cons_self ..), hd⟩

theorem Memory.write_wf {m : Memory} (a : Nat) (v : Byte) (h : Memory.wf m = true) :
    Memory.wf (Memory.write m a v) = true := by
  rw [Memory.wf_iff_pairwise] at h ⊢
  induction m with
  | nil => simp [Memory.write]
  | cons c m ih =>
    obtain ⟨b, w⟩ := c
    obtain ⟨hc, hm⟩ := List.pairwise_cons.1 h
    simp only [Memory.write]
    split
    · next hab =>
      refine List.pairwise_cons.2 ⟨fun e he => ?_, h⟩
      rcases List.mem_cons.1 he with rfl | he
      · exact hab
      · exact lt_trans hab (hc e he)
    · split
      · next hab => exact List.pairwise_cons.2 ⟨fun e he => hab ▸ hc e he, hm⟩
      · refine List.pairwise_cons.2 ⟨fun e he => ?_, ih hm⟩
        rcases Memory.mem_write he with rfl | he
        · show b < a; omega
        · exact hc e he

/-- Canonical buffers that read alike are equal data. -/
theorem Memory.ext_of_wf {m n : Memory} (hm : Memory.wf m = true) (hn : Memory.wf n = true)
    (h : ∀ a, Memory.read m a = Memory.read n a) : m = n := by
  rw [Memory.wf_iff_pairwise] at hm hn
  have low : ∀ {l : Memory} {b : Nat}, (∀ c ∈ l, b < c.1) → Memory.read l b = none := by
    intro l b hl
    induction l with
    | nil => rfl
    | cons c l ih =>
      have hb := hl c (List.mem_cons_self ..)
      simp only [Memory.read]
      rw [if_neg (by omega)]
      exact ih fun d hd => hl d (List.mem_cons_of_mem _ hd)
  induction m generalizing n with
  | nil =>
    cases n with
    | nil => rfl
    | cons d n => simpa [Memory.read] using h d.1
  | cons c m ih =>
    cases n with
    | nil => simpa [Memory.read] using h c.1
    | cons d n =>
      obtain ⟨a, v⟩ := c
      obtain ⟨b, w⟩ := d
      obtain ⟨hc, hm'⟩ := List.pairwise_cons.1 hm
      obtain ⟨hd, hn'⟩ := List.pairwise_cons.1 hn
      have hab : a = b := by
        by_contra hne
        rcases lt_or_gt_of_ne hne with hlt | hlt
        · have := h a
          rw [low (l := (b, w) :: n) (b := a)] at this
          · simp [Memory.read] at this
          · intro e he
            rcases List.mem_cons.1 he with rfl | he
            · exact hlt
            · exact lt_trans hlt (hd e he)
        · have := h b
          rw [low (l := (a, v) :: m) (b := b)] at this
          · simp [Memory.read] at this
          · intro e he
            rcases List.mem_cons.1 he with rfl | he
            · exact hlt
            · exact lt_trans hlt (hc e he)
      subst hab
      have hvw : v = w := by simpa [Memory.read] using h a
      subst hvw
      congr 1
      refine ih hm' hn' fun e => ?_
      by_cases he : a = e
      · subst he; rw [low hc, low hd]
      · simpa [Memory.read, he] using h e

/-! ## Runs of bytes -/

theorem writeBytes_wf {m : Memory} (off : Nat) (bs : List Byte) (h : Memory.wf m = true) :
    Memory.wf (writeBytes m off bs) = true := by
  induction bs generalizing m off with
  | nil => exact h
  | cons b bs ih => exact ih _ (Memory.write_wf _ _ h)

/-- What a write of several bytes leaves at every offset. -/
theorem read_writeBytes (m : Memory) (off : Nat) (bs : List Byte) (a : Nat) :
    Memory.read (writeBytes m off bs) a =
      if off ≤ a ∧ a < off + bs.length then bs[a - off]? else Memory.read m a := by
  induction bs generalizing m off with
  | nil =>
    rw [if_neg (by simp)]
    rfl
  | cons b bs ih =>
    rw [writeBytes, ih]
    by_cases h1 : off + 1 ≤ a ∧ a < off + 1 + bs.length
    · rw [if_pos h1, if_pos (by simp; omega), show a - off = (a - (off + 1)) + 1 by omega]
      simp
    · rw [if_neg h1]
      by_cases h2 : a = off
      · subst h2
        rw [if_pos (by simp), Memory.read_write_same]
        simp
      · rw [if_neg (by simp; omega), Memory.read_write_other _ _ h2]

theorem mem_writeBytes {m : Memory} {off : Nat} {bs : List Byte} {c : Host.Cell} (h : c ∈ writeBytes m off bs) :
    c ∈ m ∨ (off ≤ c.1 ∧ c.1 < off + bs.length) := by
  induction bs generalizing m off with
  | nil => exact .inl h
  | cons b bs ih =>
    rcases ih h with h | h
    · rcases Memory.mem_write h with rfl | h
      · exact .inr (by simp)
      · exact .inl h
    · exact .inr (by simp at h ⊢; omega)

/-- A read of several bytes succeeds exactly where every byte holds a value, and answers those bytes. -/
theorem readBytes_ok_iff (space : Space) (m : Memory) (off n : Nat) (bs : List Byte) :
    readBytes space m off n = .ok bs ↔ bs.length = n ∧ ∀ k < n, Memory.read m (off + k) = bs[k]? := by
  induction n generalizing off bs with
  | zero =>
    rw [readBytes]
    constructor
    · intro h; injection h with h; subst h; simp
    · rintro ⟨h, -⟩; rw [List.length_eq_zero_iff.1 h]
  | succ n ih =>
    rw [readBytes]
    constructor
    · intro h
      split at h
      · cases h
      · next b hb =>
        split at h
        · next bs' hbs =>
          injection h with h
          subst h
          obtain ⟨hl, hr⟩ := (ih _ _).1 hbs
          refine ⟨by simp [hl], fun k hk => ?_⟩
          cases k with
          | zero => simpa using hb
          | succ k => simpa [Nat.add_assoc, Nat.add_comm 1 k] using hr k (by omega)
        · cases h
    · rintro ⟨hl, hr⟩
      cases bs with
      | nil => simp at hl
      | cons b bs =>
        have h0 : Memory.read m off = some b := by simpa using hr 0 (by omega)
        have h1 : readBytes space m (off + 1) n = .ok bs := by
          refine (ih _ _).2 ⟨by simpa using hl, fun k hk => ?_⟩
          simpa [Nat.add_assoc, Nat.add_comm 1 k] using hr (k + 1) (by omega)
        rw [h0, h1]

/-- A read of several bytes fails only at a byte that holds no value, the first such, and names it. -/
theorem readBytes_error {space : Space} {m : Memory} {off n : Nat} {f : Fault}
    (h : readBytes space m off n = .error f) :
    ∃ k < n, f = .unwrittenBufferRead space (off + k) ∧ Memory.read m (off + k) = none ∧
      ∀ j < k, (Memory.read m (off + j)).isSome = true := by
  induction n generalizing off with
  | zero => cases h
  | succ n ih =>
    rw [readBytes] at h
    split at h
    · next hb => injection h with h; exact ⟨0, by omega, h.symm, hb, by simp⟩
    · next b hb =>
      split at h
      · cases h
      · next g hg =>
        injection h with h
        subst h
        obtain ⟨k, hk, rfl, hn, hs⟩ := ih hg
        refine ⟨k + 1, by omega, ?_, ?_, ?_⟩
        · congr 1; omega
        · rw [← hn]; congr 1; omega
        · intro j hj
          cases j with
          | zero => simp [hb]
          | succ j =>
            have := hs j (by omega)
            rwa [show off + 1 + j = off + (j + 1) by omega] at this

@[simp] theorem leBytes_length (w : Word) (n : Nat) : (leBytes w n).length = n := by
  induction n generalizing w with
  | zero => rfl
  | succ n ih => simp [leBytes, ih]

/-- Byte `k` of write data is `wdata[8k+7:8k]` (R244). -/
theorem leBytes_getElem? (w : Word) {n k : Nat} (h : k < n) : (leBytes w n)[k]? = some (w.extractLsb' (8 * k) 8) := by
  induction n generalizing w k with
  | zero => omega
  | succ n ih =>
    cases k with
    | zero =>
      simp only [leBytes, List.getElem?_cons_zero, Option.some.injEq]
      apply BitVec.eq_of_getLsbD_eq
      intro i hi
      simp [hi]
    | succ k =>
      rw [leBytes, List.getElem?_cons_succ, ih _ (by omega), Option.some.injEq]
      apply BitVec.eq_of_getLsbD_eq
      intro i hi
      simp [hi, Nat.mul_add, Nat.add_assoc, Nat.add_left_comm]

end Sys2Proof.Machine
end

