-- ==== Sys2Proof/Laws/State.lean ====
section
/-! SUPPORT. One lemma per field of State per named update: what the update leaves in that field. -/

namespace Sys2Proof.Machine

/-! ### raise -/

@[simp] theorem raise_ackZlp (e : Event) (info : Option Nat) (s : State) : (raise e info s).ackZlp = s.ackZlp := rfl
@[simp] theorem raise_phase (e : Event) (info : Option Nat) (s : State) : (raise e info s).phase = s.phase := rfl
@[simp] theorem raise_lastOp (e : Event) (info : Option Nat) (s : State) : (raise e info s).lastOp = s.lastOp := rfl
@[simp] theorem raise_irqStatus (e : Event) (info : Option Nat) (s : State) : (raise e info s).irqStatus = s.irqStatus ||| e.mask := rfl
@[simp] theorem raise_irqEnable (e : Event) (info : Option Nat) (s : State) : (raise e info s).irqEnable = s.irqEnable := rfl
@[simp] theorem raise_hdrCfg (e : Event) (info : Option Nat) (s : State) : (raise e info s).hdrCfg = s.hdrCfg := rfl
@[simp] theorem raise_ackFill (e : Event) (info : Option Nat) (s : State) : (raise e info s).ackFill = s.ackFill := rfl
@[simp] theorem raise_rto (e : Event) (info : Option Nat) (s : State) : (raise e info s).rto = s.rto := rfl
@[simp] theorem raise_tmrCnt (e : Event) (info : Option Nat) (s : State) : (raise e info s).tmrCnt = s.tmrCnt := rfl
@[simp] theorem raise_tmrAct (e : Event) (info : Option Nat) (s : State) : (raise e info s).tmrAct = s.tmrAct := rfl
@[simp] theorem raise_txLen (e : Event) (info : Option Nat) (s : State) : (raise e info s).txLen = s.txLen := rfl
@[simp] theorem raise_txTotal (e : Event) (info : Option Nat) (s : State) : (raise e info s).txTotal = s.txTotal := rfl
@[simp] theorem raise_txBase (e : Event) (info : Option Nat) (s : State) : (raise e info s).txBase = s.txBase := rfl
@[simp] theorem raise_txNext (e : Event) (info : Option Nat) (s : State) : (raise e info s).txNext = s.txNext := rfl
@[simp] theorem raise_rflag (e : Event) (info : Option Nat) (s : State) : (raise e info s).rflag = s.rflag := rfl
@[simp] theorem raise_rxExpected (e : Event) (info : Option Nat) (s : State) : (raise e info s).rxExpected = s.rxExpected := rfl
@[simp] theorem raise_rxLen (e : Event) (info : Option Nat) (s : State) : (raise e info s).rxLen = s.rxLen := rfl
@[simp] theorem raise_la (e : Event) (info : Option Nat) (s : State) : (raise e info s).la = s.la := rfl
@[simp] theorem raise_txFrames (e : Event) (info : Option Nat) (s : State) : (raise e info s).txFrames = s.txFrames := rfl
@[simp] theorem raise_rxFrames (e : Event) (info : Option Nat) (s : State) : (raise e info s).rxFrames = s.rxFrames := rfl
@[simp] theorem raise_timeouts (e : Event) (info : Option Nat) (s : State) : (raise e info s).timeouts = s.timeouts := rfl
@[simp] theorem raise_txbuf (e : Event) (info : Option Nat) (s : State) : (raise e info s).txbuf = s.txbuf := rfl
@[simp] theorem raise_rxbuf (e : Event) (info : Option Nat) (s : State) : (raise e info s).rxbuf = s.rxbuf := rfl
@[simp] theorem raise_params (e : Event) (info : Option Nat) (s : State) : (raise e info s).params = s.params := rfl
@[simp] theorem raise_linkIn (e : Event) (info : Option Nat) (s : State) : (raise e info s).linkIn = s.linkIn := rfl
@[simp] theorem raise_linkOut (e : Event) (info : Option Nat) (s : State) : (raise e info s).linkOut = s.linkOut := rfl
@[simp] theorem raise_ready (e : Event) (info : Option Nat) (s : State) : (raise e info s).ready = s.ready := rfl
@[simp] theorem raise_resp (e : Event) (info : Option Nat) (s : State) : (raise e info s).resp = s.resp := rfl
@[simp] theorem raise_events (e : Event) (info : Option Nat) (s : State) : (raise e info s).events = s.events ++ [⟨e, info⟩] := rfl
@[simp] theorem raise_agenda (e : Event) (info : Option Nat) (s : State) : (raise e info s).agenda = s.agenda := rfl
@[simp] theorem raise_choiceIdx (e : Event) (info : Option Nat) (s : State) : (raise e info s).choiceIdx = s.choiceIdx := rfl

/-! ### clearEvents -/

@[simp] theorem clearEvents_ackZlp (ones : BitVec 8) (s : State) : (clearEvents ones s).ackZlp = s.ackZlp := rfl
@[simp] theorem clearEvents_phase (ones : BitVec 8) (s : State) : (clearEvents ones s).phase = s.phase := rfl
@[simp] theorem clearEvents_lastOp (ones : BitVec 8) (s : State) : (clearEvents ones s).lastOp = s.lastOp := rfl
@[simp] theorem clearEvents_irqStatus (ones : BitVec 8) (s : State) : (clearEvents ones s).irqStatus = s.irqStatus &&& ~~~ones := rfl
@[simp] theorem clearEvents_irqEnable (ones : BitVec 8) (s : State) : (clearEvents ones s).irqEnable = s.irqEnable := rfl
@[simp] theorem clearEvents_hdrCfg (ones : BitVec 8) (s : State) : (clearEvents ones s).hdrCfg = s.hdrCfg := rfl
@[simp] theorem clearEvents_ackFill (ones : BitVec 8) (s : State) : (clearEvents ones s).ackFill = s.ackFill := rfl
@[simp] theorem clearEvents_rto (ones : BitVec 8) (s : State) : (clearEvents ones s).rto = s.rto := rfl
@[simp] theorem clearEvents_tmrCnt (ones : BitVec 8) (s : State) : (clearEvents ones s).tmrCnt = s.tmrCnt := rfl
@[simp] theorem clearEvents_tmrAct (ones : BitVec 8) (s : State) : (clearEvents ones s).tmrAct = s.tmrAct := rfl
@[simp] theorem clearEvents_txLen (ones : BitVec 8) (s : State) : (clearEvents ones s).txLen = s.txLen := rfl
@[simp] theorem clearEvents_txTotal (ones : BitVec 8) (s : State) : (clearEvents ones s).txTotal = s.txTotal := rfl
@[simp] theorem clearEvents_txBase (ones : BitVec 8) (s : State) : (clearEvents ones s).txBase = s.txBase := rfl
@[simp] theorem clearEvents_txNext (ones : BitVec 8) (s : State) : (clearEvents ones s).txNext = s.txNext := rfl
@[simp] theorem clearEvents_rflag (ones : BitVec 8) (s : State) : (clearEvents ones s).rflag = s.rflag := rfl
@[simp] theorem clearEvents_rxExpected (ones : BitVec 8) (s : State) : (clearEvents ones s).rxExpected = s.rxExpected := rfl
@[simp] theorem clearEvents_rxLen (ones : BitVec 8) (s : State) : (clearEvents ones s).rxLen = s.rxLen := rfl
@[simp] theorem clearEvents_la (ones : BitVec 8) (s : State) : (clearEvents ones s).la = s.la := rfl
@[simp] theorem clearEvents_txFrames (ones : BitVec 8) (s : State) : (clearEvents ones s).txFrames = s.txFrames := rfl
@[simp] theorem clearEvents_rxFrames (ones : BitVec 8) (s : State) : (clearEvents ones s).rxFrames = s.rxFrames := rfl
@[simp] theorem clearEvents_timeouts (ones : BitVec 8) (s : State) : (clearEvents ones s).timeouts = s.timeouts := rfl
@[simp] theorem clearEvents_txbuf (ones : BitVec 8) (s : State) : (clearEvents ones s).txbuf = s.txbuf := rfl
@[simp] theorem clearEvents_rxbuf (ones : BitVec 8) (s : State) : (clearEvents ones s).rxbuf = s.rxbuf := rfl
@[simp] theorem clearEvents_params (ones : BitVec 8) (s : State) : (clearEvents ones s).params = s.params := rfl
@[simp] theorem clearEvents_linkIn (ones : BitVec 8) (s : State) : (clearEvents ones s).linkIn = s.linkIn := rfl
@[simp] theorem clearEvents_linkOut (ones : BitVec 8) (s : State) : (clearEvents ones s).linkOut = s.linkOut := rfl
@[simp] theorem clearEvents_ready (ones : BitVec 8) (s : State) : (clearEvents ones s).ready = s.ready := rfl
@[simp] theorem clearEvents_resp (ones : BitVec 8) (s : State) : (clearEvents ones s).resp = s.resp := rfl
@[simp] theorem clearEvents_events (ones : BitVec 8) (s : State) : (clearEvents ones s).events = s.events := rfl
@[simp] theorem clearEvents_agenda (ones : BitVec 8) (s : State) : (clearEvents ones s).agenda = s.agenda := rfl
@[simp] theorem clearEvents_choiceIdx (ones : BitVec 8) (s : State) : (clearEvents ones s).choiceIdx = s.choiceIdx := rfl

/-! ### emit -/

@[simp] theorem emit_ackZlp (f : Frame) (s : State) : (emit f s).ackZlp = s.ackZlp := rfl
@[simp] theorem emit_phase (f : Frame) (s : State) : (emit f s).phase = s.phase := rfl
@[simp] theorem emit_lastOp (f : Frame) (s : State) : (emit f s).lastOp = s.lastOp := rfl
@[simp] theorem emit_irqStatus (f : Frame) (s : State) : (emit f s).irqStatus = s.irqStatus := rfl
@[simp] theorem emit_irqEnable (f : Frame) (s : State) : (emit f s).irqEnable = s.irqEnable := rfl
@[simp] theorem emit_hdrCfg (f : Frame) (s : State) : (emit f s).hdrCfg = s.hdrCfg := rfl
@[simp] theorem emit_ackFill (f : Frame) (s : State) : (emit f s).ackFill = s.ackFill := rfl
@[simp] theorem emit_rto (f : Frame) (s : State) : (emit f s).rto = s.rto := rfl
@[simp] theorem emit_tmrCnt (f : Frame) (s : State) : (emit f s).tmrCnt = s.tmrCnt := rfl
@[simp] theorem emit_tmrAct (f : Frame) (s : State) : (emit f s).tmrAct = s.tmrAct := rfl
@[simp] theorem emit_txLen (f : Frame) (s : State) : (emit f s).txLen = s.txLen := rfl
@[simp] theorem emit_txTotal (f : Frame) (s : State) : (emit f s).txTotal = s.txTotal := rfl
@[simp] theorem emit_txBase (f : Frame) (s : State) : (emit f s).txBase = s.txBase := rfl
@[simp] theorem emit_txNext (f : Frame) (s : State) : (emit f s).txNext = s.txNext := rfl
@[simp] theorem emit_rflag (f : Frame) (s : State) : (emit f s).rflag = s.rflag := rfl
@[simp] theorem emit_rxExpected (f : Frame) (s : State) : (emit f s).rxExpected = s.rxExpected := rfl
@[simp] theorem emit_rxLen (f : Frame) (s : State) : (emit f s).rxLen = s.rxLen := rfl
@[simp] theorem emit_la (f : Frame) (s : State) : (emit f s).la = s.la := rfl
@[simp] theorem emit_txFrames (f : Frame) (s : State) : (emit f s).txFrames = s.txFrames + 1 := rfl
@[simp] theorem emit_rxFrames (f : Frame) (s : State) : (emit f s).rxFrames = s.rxFrames := rfl
@[simp] theorem emit_timeouts (f : Frame) (s : State) : (emit f s).timeouts = s.timeouts := rfl
@[simp] theorem emit_txbuf (f : Frame) (s : State) : (emit f s).txbuf = s.txbuf := rfl
@[simp] theorem emit_rxbuf (f : Frame) (s : State) : (emit f s).rxbuf = s.rxbuf := rfl
@[simp] theorem emit_params (f : Frame) (s : State) : (emit f s).params = s.params := rfl
@[simp] theorem emit_linkIn (f : Frame) (s : State) : (emit f s).linkIn = s.linkIn := rfl
@[simp] theorem emit_linkOut (f : Frame) (s : State) : (emit f s).linkOut = s.linkOut ++ [f] := rfl
@[simp] theorem emit_ready (f : Frame) (s : State) : (emit f s).ready = s.ready := rfl
@[simp] theorem emit_resp (f : Frame) (s : State) : (emit f s).resp = s.resp := rfl
@[simp] theorem emit_events (f : Frame) (s : State) : (emit f s).events = s.events := rfl
@[simp] theorem emit_agenda (f : Frame) (s : State) : (emit f s).agenda = s.agenda := rfl
@[simp] theorem emit_choiceIdx (f : Frame) (s : State) : (emit f s).choiceIdx = s.choiceIdx := rfl

/-! ### consume -/

@[simp] theorem consume_ackZlp (s : State) : (consume s).ackZlp = s.ackZlp := rfl
@[simp] theorem consume_phase (s : State) : (consume s).phase = s.phase := rfl
@[simp] theorem consume_lastOp (s : State) : (consume s).lastOp = s.lastOp := rfl
@[simp] theorem consume_irqStatus (s : State) : (consume s).irqStatus = s.irqStatus := rfl
@[simp] theorem consume_irqEnable (s : State) : (consume s).irqEnable = s.irqEnable := rfl
@[simp] theorem consume_hdrCfg (s : State) : (consume s).hdrCfg = s.hdrCfg := rfl
@[simp] theorem consume_ackFill (s : State) : (consume s).ackFill = s.ackFill := rfl
@[simp] theorem consume_rto (s : State) : (consume s).rto = s.rto := rfl
@[simp] theorem consume_tmrCnt (s : State) : (consume s).tmrCnt = s.tmrCnt := rfl
@[simp] theorem consume_tmrAct (s : State) : (consume s).tmrAct = s.tmrAct := rfl
@[simp] theorem consume_txLen (s : State) : (consume s).txLen = s.txLen := rfl
@[simp] theorem consume_txTotal (s : State) : (consume s).txTotal = s.txTotal := rfl
@[simp] theorem consume_txBase (s : State) : (consume s).txBase = s.txBase := rfl
@[simp] theorem consume_txNext (s : State) : (consume s).txNext = s.txNext := rfl
@[simp] theorem consume_rflag (s : State) : (consume s).rflag = s.rflag := rfl
@[simp] theorem consume_rxExpected (s : State) : (consume s).rxExpected = s.rxExpected := rfl
@[simp] theorem consume_rxLen (s : State) : (consume s).rxLen = s.rxLen := rfl
@[simp] theorem consume_la (s : State) : (consume s).la = s.la := rfl
@[simp] theorem consume_txFrames (s : State) : (consume s).txFrames = s.txFrames := rfl
@[simp] theorem consume_rxFrames (s : State) : (consume s).rxFrames = s.rxFrames + 1 := rfl
@[simp] theorem consume_timeouts (s : State) : (consume s).timeouts = s.timeouts := rfl
@[simp] theorem consume_txbuf (s : State) : (consume s).txbuf = s.txbuf := rfl
@[simp] theorem consume_rxbuf (s : State) : (consume s).rxbuf = s.rxbuf := rfl
@[simp] theorem consume_params (s : State) : (consume s).params = s.params := rfl
@[simp] theorem consume_linkIn (s : State) : (consume s).linkIn = s.linkIn.tail := rfl
@[simp] theorem consume_linkOut (s : State) : (consume s).linkOut = s.linkOut := rfl
@[simp] theorem consume_ready (s : State) : (consume s).ready = s.ready := rfl
@[simp] theorem consume_resp (s : State) : (consume s).resp = s.resp := rfl
@[simp] theorem consume_events (s : State) : (consume s).events = s.events := rfl
@[simp] theorem consume_agenda (s : State) : (consume s).agenda = s.agenda := rfl
@[simp] theorem consume_choiceIdx (s : State) : (consume s).choiceIdx = s.choiceIdx := rfl

/-! ### recordOp -/

@[simp] theorem recordOp_ackZlp (code : Byte) (s : State) : (recordOp code s).ackZlp = s.ackZlp := rfl
@[simp] theorem recordOp_phase (code : Byte) (s : State) : (recordOp code s).phase = s.phase := rfl
@[simp] theorem recordOp_lastOp (code : Byte) (s : State) : (recordOp code s).lastOp = code := rfl
@[simp] theorem recordOp_irqStatus (code : Byte) (s : State) : (recordOp code s).irqStatus = s.irqStatus := rfl
@[simp] theorem recordOp_irqEnable (code : Byte) (s : State) : (recordOp code s).irqEnable = s.irqEnable := rfl
@[simp] theorem recordOp_hdrCfg (code : Byte) (s : State) : (recordOp code s).hdrCfg = s.hdrCfg := rfl
@[simp] theorem recordOp_ackFill (code : Byte) (s : State) : (recordOp code s).ackFill = s.ackFill := rfl
@[simp] theorem recordOp_rto (code : Byte) (s : State) : (recordOp code s).rto = s.rto := rfl
@[simp] theorem recordOp_tmrCnt (code : Byte) (s : State) : (recordOp code s).tmrCnt = s.tmrCnt := rfl
@[simp] theorem recordOp_tmrAct (code : Byte) (s : State) : (recordOp code s).tmrAct = s.tmrAct := rfl
@[simp] theorem recordOp_txLen (code : Byte) (s : State) : (recordOp code s).txLen = s.txLen := rfl
@[simp] theorem recordOp_txTotal (code : Byte) (s : State) : (recordOp code s).txTotal = s.txTotal := rfl
@[simp] theorem recordOp_txBase (code : Byte) (s : State) : (recordOp code s).txBase = s.txBase := rfl
@[simp] theorem recordOp_txNext (code : Byte) (s : State) : (recordOp code s).txNext = s.txNext := rfl
@[simp] theorem recordOp_rflag (code : Byte) (s : State) : (recordOp code s).rflag = s.rflag := rfl
@[simp] theorem recordOp_rxExpected (code : Byte) (s : State) : (recordOp code s).rxExpected = s.rxExpected := rfl
@[simp] theorem recordOp_rxLen (code : Byte) (s : State) : (recordOp code s).rxLen = s.rxLen := rfl
@[simp] theorem recordOp_la (code : Byte) (s : State) : (recordOp code s).la = s.la := rfl
@[simp] theorem recordOp_txFrames (code : Byte) (s : State) : (recordOp code s).txFrames = s.txFrames := rfl
@[simp] theorem recordOp_rxFrames (code : Byte) (s : State) : (recordOp code s).rxFrames = s.rxFrames := rfl
@[simp] theorem recordOp_timeouts (code : Byte) (s : State) : (recordOp code s).timeouts = s.timeouts := rfl
@[simp] theorem recordOp_txbuf (code : Byte) (s : State) : (recordOp code s).txbuf = s.txbuf := rfl
@[simp] theorem recordOp_rxbuf (code : Byte) (s : State) : (recordOp code s).rxbuf = s.rxbuf := rfl
@[simp] theorem recordOp_params (code : Byte) (s : State) : (recordOp code s).params = s.params := rfl
@[simp] theorem recordOp_linkIn (code : Byte) (s : State) : (recordOp code s).linkIn = s.linkIn := rfl
@[simp] theorem recordOp_linkOut (code : Byte) (s : State) : (recordOp code s).linkOut = s.linkOut := rfl
@[simp] theorem recordOp_ready (code : Byte) (s : State) : (recordOp code s).ready = s.ready := rfl
@[simp] theorem recordOp_resp (code : Byte) (s : State) : (recordOp code s).resp = s.resp := rfl
@[simp] theorem recordOp_events (code : Byte) (s : State) : (recordOp code s).events = s.events := rfl
@[simp] theorem recordOp_agenda (code : Byte) (s : State) : (recordOp code s).agenda = s.agenda := rfl
@[simp] theorem recordOp_choiceIdx (code : Byte) (s : State) : (recordOp code s).choiceIdx = s.choiceIdx := rfl

/-! ### clearCounters -/

@[simp] theorem clearCounters_ackZlp (s : State) : (clearCounters s).ackZlp = s.ackZlp := rfl
@[simp] theorem clearCounters_phase (s : State) : (clearCounters s).phase = s.phase := rfl
@[simp] theorem clearCounters_lastOp (s : State) : (clearCounters s).lastOp = s.lastOp := rfl
@[simp] theorem clearCounters_irqStatus (s : State) : (clearCounters s).irqStatus = s.irqStatus := rfl
@[simp] theorem clearCounters_irqEnable (s : State) : (clearCounters s).irqEnable = s.irqEnable := rfl
@[simp] theorem clearCounters_hdrCfg (s : State) : (clearCounters s).hdrCfg = s.hdrCfg := rfl
@[simp] theorem clearCounters_ackFill (s : State) : (clearCounters s).ackFill = s.ackFill := rfl
@[simp] theorem clearCounters_rto (s : State) : (clearCounters s).rto = s.rto := rfl
@[simp] theorem clearCounters_tmrCnt (s : State) : (clearCounters s).tmrCnt = s.tmrCnt := rfl
@[simp] theorem clearCounters_tmrAct (s : State) : (clearCounters s).tmrAct = s.tmrAct := rfl
@[simp] theorem clearCounters_txLen (s : State) : (clearCounters s).txLen = s.txLen := rfl
@[simp] theorem clearCounters_txTotal (s : State) : (clearCounters s).txTotal = s.txTotal := rfl
@[simp] theorem clearCounters_txBase (s : State) : (clearCounters s).txBase = s.txBase := rfl
@[simp] theorem clearCounters_txNext (s : State) : (clearCounters s).txNext = s.txNext := rfl
@[simp] theorem clearCounters_rflag (s : State) : (clearCounters s).rflag = s.rflag := rfl
@[simp] theorem clearCounters_rxExpected (s : State) : (clearCounters s).rxExpected = s.rxExpected := rfl
@[simp] theorem clearCounters_rxLen (s : State) : (clearCounters s).rxLen = s.rxLen := rfl
@[simp] theorem clearCounters_la (s : State) : (clearCounters s).la = s.la := rfl
@[simp] theorem clearCounters_txFrames (s : State) : (clearCounters s).txFrames = 0 := rfl
@[simp] theorem clearCounters_rxFrames (s : State) : (clearCounters s).rxFrames = 0 := rfl
@[simp] theorem clearCounters_timeouts (s : State) : (clearCounters s).timeouts = 0 := rfl
@[simp] theorem clearCounters_txbuf (s : State) : (clearCounters s).txbuf = s.txbuf := rfl
@[simp] theorem clearCounters_rxbuf (s : State) : (clearCounters s).rxbuf = s.rxbuf := rfl
@[simp] theorem clearCounters_params (s : State) : (clearCounters s).params = s.params := rfl
@[simp] theorem clearCounters_linkIn (s : State) : (clearCounters s).linkIn = s.linkIn := rfl
@[simp] theorem clearCounters_linkOut (s : State) : (clearCounters s).linkOut = s.linkOut := rfl
@[simp] theorem clearCounters_ready (s : State) : (clearCounters s).ready = s.ready := rfl
@[simp] theorem clearCounters_resp (s : State) : (clearCounters s).resp = s.resp := rfl
@[simp] theorem clearCounters_events (s : State) : (clearCounters s).events = s.events := rfl
@[simp] theorem clearCounters_agenda (s : State) : (clearCounters s).agenda = s.agenda := rfl
@[simp] theorem clearCounters_choiceIdx (s : State) : (clearCounters s).choiceIdx = s.choiceIdx := rfl

/-! ### armTimer -/

@[simp] theorem armTimer_ackZlp (s : State) : (armTimer s).ackZlp = s.ackZlp := rfl
@[simp] theorem armTimer_phase (s : State) : (armTimer s).phase = s.phase := rfl
@[simp] theorem armTimer_lastOp (s : State) : (armTimer s).lastOp = s.lastOp := rfl
@[simp] theorem armTimer_irqStatus (s : State) : (armTimer s).irqStatus = s.irqStatus := rfl
@[simp] theorem armTimer_irqEnable (s : State) : (armTimer s).irqEnable = s.irqEnable := rfl
@[simp] theorem armTimer_hdrCfg (s : State) : (armTimer s).hdrCfg = s.hdrCfg := rfl
@[simp] theorem armTimer_ackFill (s : State) : (armTimer s).ackFill = s.ackFill := rfl
@[simp] theorem armTimer_rto (s : State) : (armTimer s).rto = s.rto := rfl
@[simp] theorem armTimer_tmrCnt (s : State) : (armTimer s).tmrCnt = s.rto := rfl
@[simp] theorem armTimer_tmrAct (s : State) : (armTimer s).tmrAct = true := rfl
@[simp] theorem armTimer_txLen (s : State) : (armTimer s).txLen = s.txLen := rfl
@[simp] theorem armTimer_txTotal (s : State) : (armTimer s).txTotal = s.txTotal := rfl
@[simp] theorem armTimer_txBase (s : State) : (armTimer s).txBase = s.txBase := rfl
@[simp] theorem armTimer_txNext (s : State) : (armTimer s).txNext = s.txNext := rfl
@[simp] theorem armTimer_rflag (s : State) : (armTimer s).rflag = s.rflag := rfl
@[simp] theorem armTimer_rxExpected (s : State) : (armTimer s).rxExpected = s.rxExpected := rfl
@[simp] theorem armTimer_rxLen (s : State) : (armTimer s).rxLen = s.rxLen := rfl
@[simp] theorem armTimer_la (s : State) : (armTimer s).la = s.la := rfl
@[simp] theorem armTimer_txFrames (s : State) : (armTimer s).txFrames = s.txFrames := rfl
@[simp] theorem armTimer_rxFrames (s : State) : (armTimer s).rxFrames = s.rxFrames := rfl
@[simp] theorem armTimer_timeouts (s : State) : (armTimer s).timeouts = s.timeouts := rfl
@[simp] theorem armTimer_txbuf (s : State) : (armTimer s).txbuf = s.txbuf := rfl
@[simp] theorem armTimer_rxbuf (s : State) : (armTimer s).rxbuf = s.rxbuf := rfl
@[simp] theorem armTimer_params (s : State) : (armTimer s).params = s.params := rfl
@[simp] theorem armTimer_linkIn (s : State) : (armTimer s).linkIn = s.linkIn := rfl
@[simp] theorem armTimer_linkOut (s : State) : (armTimer s).linkOut = s.linkOut := rfl
@[simp] theorem armTimer_ready (s : State) : (armTimer s).ready = s.ready := rfl
@[simp] theorem armTimer_resp (s : State) : (armTimer s).resp = s.resp := rfl
@[simp] theorem armTimer_events (s : State) : (armTimer s).events = s.events := rfl
@[simp] theorem armTimer_agenda (s : State) : (armTimer s).agenda = s.agenda := rfl
@[simp] theorem armTimer_choiceIdx (s : State) : (armTimer s).choiceIdx = s.choiceIdx := rfl

/-! ### disarmTimer -/

@[simp] theorem disarmTimer_ackZlp (s : State) : (disarmTimer s).ackZlp = s.ackZlp := rfl
@[simp] theorem disarmTimer_phase (s : State) : (disarmTimer s).phase = s.phase := rfl
@[simp] theorem disarmTimer_lastOp (s : State) : (disarmTimer s).lastOp = s.lastOp := rfl
@[simp] theorem disarmTimer_irqStatus (s : State) : (disarmTimer s).irqStatus = s.irqStatus := rfl
@[simp] theorem disarmTimer_irqEnable (s : State) : (disarmTimer s).irqEnable = s.irqEnable := rfl
@[simp] theorem disarmTimer_hdrCfg (s : State) : (disarmTimer s).hdrCfg = s.hdrCfg := rfl
@[simp] theorem disarmTimer_ackFill (s : State) : (disarmTimer s).ackFill = s.ackFill := rfl
@[simp] theorem disarmTimer_rto (s : State) : (disarmTimer s).rto = s.rto := rfl
@[simp] theorem disarmTimer_tmrCnt (s : State) : (disarmTimer s).tmrCnt = 0 := rfl
@[simp] theorem disarmTimer_tmrAct (s : State) : (disarmTimer s).tmrAct = false := rfl
@[simp] theorem disarmTimer_txLen (s : State) : (disarmTimer s).txLen = s.txLen := rfl
@[simp] theorem disarmTimer_txTotal (s : State) : (disarmTimer s).txTotal = s.txTotal := rfl
@[simp] theorem disarmTimer_txBase (s : State) : (disarmTimer s).txBase = s.txBase := rfl
@[simp] theorem disarmTimer_txNext (s : State) : (disarmTimer s).txNext = s.txNext := rfl
@[simp] theorem disarmTimer_rflag (s : State) : (disarmTimer s).rflag = s.rflag := rfl
@[simp] theorem disarmTimer_rxExpected (s : State) : (disarmTimer s).rxExpected = s.rxExpected := rfl
@[simp] theorem disarmTimer_rxLen (s : State) : (disarmTimer s).rxLen = s.rxLen := rfl
@[simp] theorem disarmTimer_la (s : State) : (disarmTimer s).la = s.la := rfl
@[simp] theorem disarmTimer_txFrames (s : State) : (disarmTimer s).txFrames = s.txFrames := rfl
@[simp] theorem disarmTimer_rxFrames (s : State) : (disarmTimer s).rxFrames = s.rxFrames := rfl
@[simp] theorem disarmTimer_timeouts (s : State) : (disarmTimer s).timeouts = s.timeouts := rfl
@[simp] theorem disarmTimer_txbuf (s : State) : (disarmTimer s).txbuf = s.txbuf := rfl
@[simp] theorem disarmTimer_rxbuf (s : State) : (disarmTimer s).rxbuf = s.rxbuf := rfl
@[simp] theorem disarmTimer_params (s : State) : (disarmTimer s).params = s.params := rfl
@[simp] theorem disarmTimer_linkIn (s : State) : (disarmTimer s).linkIn = s.linkIn := rfl
@[simp] theorem disarmTimer_linkOut (s : State) : (disarmTimer s).linkOut = s.linkOut := rfl
@[simp] theorem disarmTimer_ready (s : State) : (disarmTimer s).ready = s.ready := rfl
@[simp] theorem disarmTimer_resp (s : State) : (disarmTimer s).resp = s.resp := rfl
@[simp] theorem disarmTimer_events (s : State) : (disarmTimer s).events = s.events := rfl
@[simp] theorem disarmTimer_agenda (s : State) : (disarmTimer s).agenda = s.agenda := rfl
@[simp] theorem disarmTimer_choiceIdx (s : State) : (disarmTimer s).choiceIdx = s.choiceIdx := rfl

/-! ### respond -/

@[simp] theorem respond_ackZlp (r : Response) (s : State) : (respond r s).ackZlp = s.ackZlp := rfl
@[simp] theorem respond_phase (r : Response) (s : State) : (respond r s).phase = s.phase := rfl
@[simp] theorem respond_lastOp (r : Response) (s : State) : (respond r s).lastOp = s.lastOp := rfl
@[simp] theorem respond_irqStatus (r : Response) (s : State) : (respond r s).irqStatus = s.irqStatus := rfl
@[simp] theorem respond_irqEnable (r : Response) (s : State) : (respond r s).irqEnable = s.irqEnable := rfl
@[simp] theorem respond_hdrCfg (r : Response) (s : State) : (respond r s).hdrCfg = s.hdrCfg := rfl
@[simp] theorem respond_ackFill (r : Response) (s : State) : (respond r s).ackFill = s.ackFill := rfl
@[simp] theorem respond_rto (r : Response) (s : State) : (respond r s).rto = s.rto := rfl
@[simp] theorem respond_tmrCnt (r : Response) (s : State) : (respond r s).tmrCnt = s.tmrCnt := rfl
@[simp] theorem respond_tmrAct (r : Response) (s : State) : (respond r s).tmrAct = s.tmrAct := rfl
@[simp] theorem respond_txLen (r : Response) (s : State) : (respond r s).txLen = s.txLen := rfl
@[simp] theorem respond_txTotal (r : Response) (s : State) : (respond r s).txTotal = s.txTotal := rfl
@[simp] theorem respond_txBase (r : Response) (s : State) : (respond r s).txBase = s.txBase := rfl
@[simp] theorem respond_txNext (r : Response) (s : State) : (respond r s).txNext = s.txNext := rfl
@[simp] theorem respond_rflag (r : Response) (s : State) : (respond r s).rflag = s.rflag := rfl
@[simp] theorem respond_rxExpected (r : Response) (s : State) : (respond r s).rxExpected = s.rxExpected := rfl
@[simp] theorem respond_rxLen (r : Response) (s : State) : (respond r s).rxLen = s.rxLen := rfl
@[simp] theorem respond_la (r : Response) (s : State) : (respond r s).la = s.la := rfl
@[simp] theorem respond_txFrames (r : Response) (s : State) : (respond r s).txFrames = s.txFrames := rfl
@[simp] theorem respond_rxFrames (r : Response) (s : State) : (respond r s).rxFrames = s.rxFrames := rfl
@[simp] theorem respond_timeouts (r : Response) (s : State) : (respond r s).timeouts = s.timeouts := rfl
@[simp] theorem respond_txbuf (r : Response) (s : State) : (respond r s).txbuf = s.txbuf := rfl
@[simp] theorem respond_rxbuf (r : Response) (s : State) : (respond r s).rxbuf = s.rxbuf := rfl
@[simp] theorem respond_params (r : Response) (s : State) : (respond r s).params = s.params := rfl
@[simp] theorem respond_linkIn (r : Response) (s : State) : (respond r s).linkIn = s.linkIn := rfl
@[simp] theorem respond_linkOut (r : Response) (s : State) : (respond r s).linkOut = s.linkOut := rfl
@[simp] theorem respond_ready (r : Response) (s : State) : (respond r s).ready = s.ready := rfl
@[simp] theorem respond_resp (r : Response) (s : State) : (respond r s).resp = r := rfl
@[simp] theorem respond_events (r : Response) (s : State) : (respond r s).events = s.events := rfl
@[simp] theorem respond_agenda (r : Response) (s : State) : (respond r s).agenda = s.agenda := rfl
@[simp] theorem respond_choiceIdx (r : Response) (s : State) : (respond r s).choiceIdx = s.choiceIdx := rfl

/-! ### deliver -/

@[simp] theorem deliver_ackZlp (f : Frame) (s : State) : (deliver f s).ackZlp = s.ackZlp := rfl
@[simp] theorem deliver_phase (f : Frame) (s : State) : (deliver f s).phase = s.phase := rfl
@[simp] theorem deliver_lastOp (f : Frame) (s : State) : (deliver f s).lastOp = s.lastOp := rfl
@[simp] theorem deliver_irqStatus (f : Frame) (s : State) : (deliver f s).irqStatus = s.irqStatus := rfl
@[simp] theorem deliver_irqEnable (f : Frame) (s : State) : (deliver f s).irqEnable = s.irqEnable := rfl
@[simp] theorem deliver_hdrCfg (f : Frame) (s : State) : (deliver f s).hdrCfg = s.hdrCfg := rfl
@[simp] theorem deliver_ackFill (f : Frame) (s : State) : (deliver f s).ackFill = s.ackFill := rfl
@[simp] theorem deliver_rto (f : Frame) (s : State) : (deliver f s).rto = s.rto := rfl
@[simp] theorem deliver_tmrCnt (f : Frame) (s : State) : (deliver f s).tmrCnt = s.tmrCnt := rfl
@[simp] theorem deliver_tmrAct (f : Frame) (s : State) : (deliver f s).tmrAct = s.tmrAct := rfl
@[simp] theorem deliver_txLen (f : Frame) (s : State) : (deliver f s).txLen = s.txLen := rfl
@[simp] theorem deliver_txTotal (f : Frame) (s : State) : (deliver f s).txTotal = s.txTotal := rfl
@[simp] theorem deliver_txBase (f : Frame) (s : State) : (deliver f s).txBase = s.txBase := rfl
@[simp] theorem deliver_txNext (f : Frame) (s : State) : (deliver f s).txNext = s.txNext := rfl
@[simp] theorem deliver_rflag (f : Frame) (s : State) : (deliver f s).rflag = s.rflag := rfl
@[simp] theorem deliver_rxExpected (f : Frame) (s : State) : (deliver f s).rxExpected = s.rxExpected := rfl
@[simp] theorem deliver_rxLen (f : Frame) (s : State) : (deliver f s).rxLen = s.rxLen := rfl
@[simp] theorem deliver_la (f : Frame) (s : State) : (deliver f s).la = s.la := rfl
@[simp] theorem deliver_txFrames (f : Frame) (s : State) : (deliver f s).txFrames = s.txFrames := rfl
@[simp] theorem deliver_rxFrames (f : Frame) (s : State) : (deliver f s).rxFrames = s.rxFrames := rfl
@[simp] theorem deliver_timeouts (f : Frame) (s : State) : (deliver f s).timeouts = s.timeouts := rfl
@[simp] theorem deliver_txbuf (f : Frame) (s : State) : (deliver f s).txbuf = s.txbuf := rfl
@[simp] theorem deliver_rxbuf (f : Frame) (s : State) : (deliver f s).rxbuf = s.rxbuf := rfl
@[simp] theorem deliver_params (f : Frame) (s : State) : (deliver f s).params = s.params := rfl
@[simp] theorem deliver_linkIn (f : Frame) (s : State) : (deliver f s).linkIn = s.linkIn ++ [f] := rfl
@[simp] theorem deliver_linkOut (f : Frame) (s : State) : (deliver f s).linkOut = s.linkOut := rfl
@[simp] theorem deliver_ready (f : Frame) (s : State) : (deliver f s).ready = s.ready := rfl
@[simp] theorem deliver_resp (f : Frame) (s : State) : (deliver f s).resp = s.resp := rfl
@[simp] theorem deliver_events (f : Frame) (s : State) : (deliver f s).events = s.events := rfl
@[simp] theorem deliver_agenda (f : Frame) (s : State) : (deliver f s).agenda = s.agenda := rfl
@[simp] theorem deliver_choiceIdx (f : Frame) (s : State) : (deliver f s).choiceIdx = s.choiceIdx := rfl

/-! ### takeOldest -/

@[simp] theorem takeOldest_ackZlp (s : State) : (takeOldest s).ackZlp = s.ackZlp := rfl
@[simp] theorem takeOldest_phase (s : State) : (takeOldest s).phase = s.phase := rfl
@[simp] theorem takeOldest_lastOp (s : State) : (takeOldest s).lastOp = s.lastOp := rfl
@[simp] theorem takeOldest_irqStatus (s : State) : (takeOldest s).irqStatus = s.irqStatus := rfl
@[simp] theorem takeOldest_irqEnable (s : State) : (takeOldest s).irqEnable = s.irqEnable := rfl
@[simp] theorem takeOldest_hdrCfg (s : State) : (takeOldest s).hdrCfg = s.hdrCfg := rfl
@[simp] theorem takeOldest_ackFill (s : State) : (takeOldest s).ackFill = s.ackFill := rfl
@[simp] theorem takeOldest_rto (s : State) : (takeOldest s).rto = s.rto := rfl
@[simp] theorem takeOldest_tmrCnt (s : State) : (takeOldest s).tmrCnt = s.tmrCnt := rfl
@[simp] theorem takeOldest_tmrAct (s : State) : (takeOldest s).tmrAct = s.tmrAct := rfl
@[simp] theorem takeOldest_txLen (s : State) : (takeOldest s).txLen = s.txLen := rfl
@[simp] theorem takeOldest_txTotal (s : State) : (takeOldest s).txTotal = s.txTotal := rfl
@[simp] theorem takeOldest_txBase (s : State) : (takeOldest s).txBase = s.txBase := rfl
@[simp] theorem takeOldest_txNext (s : State) : (takeOldest s).txNext = s.txNext := rfl
@[simp] theorem takeOldest_rflag (s : State) : (takeOldest s).rflag = s.rflag := rfl
@[simp] theorem takeOldest_rxExpected (s : State) : (takeOldest s).rxExpected = s.rxExpected := rfl
@[simp] theorem takeOldest_rxLen (s : State) : (takeOldest s).rxLen = s.rxLen := rfl
@[simp] theorem takeOldest_la (s : State) : (takeOldest s).la = s.la := rfl
@[simp] theorem takeOldest_txFrames (s : State) : (takeOldest s).txFrames = s.txFrames := rfl
@[simp] theorem takeOldest_rxFrames (s : State) : (takeOldest s).rxFrames = s.rxFrames := rfl
@[simp] theorem takeOldest_timeouts (s : State) : (takeOldest s).timeouts = s.timeouts := rfl
@[simp] theorem takeOldest_txbuf (s : State) : (takeOldest s).txbuf = s.txbuf := rfl
@[simp] theorem takeOldest_rxbuf (s : State) : (takeOldest s).rxbuf = s.rxbuf := rfl
@[simp] theorem takeOldest_params (s : State) : (takeOldest s).params = s.params := rfl
@[simp] theorem takeOldest_linkIn (s : State) : (takeOldest s).linkIn = s.linkIn := rfl
@[simp] theorem takeOldest_linkOut (s : State) : (takeOldest s).linkOut = s.linkOut.tail := rfl
@[simp] theorem takeOldest_ready (s : State) : (takeOldest s).ready = s.ready := rfl
@[simp] theorem takeOldest_resp (s : State) : (takeOldest s).resp = s.resp := rfl
@[simp] theorem takeOldest_events (s : State) : (takeOldest s).events = s.events := rfl
@[simp] theorem takeOldest_agenda (s : State) : (takeOldest s).agenda = s.agenda := rfl
@[simp] theorem takeOldest_choiceIdx (s : State) : (takeOldest s).choiceIdx = s.choiceIdx := rfl

/-! ### dropNewest -/

@[simp] theorem dropNewest_ackZlp (s : State) : (dropNewest s).ackZlp = s.ackZlp := rfl
@[simp] theorem dropNewest_phase (s : State) : (dropNewest s).phase = s.phase := rfl
@[simp] theorem dropNewest_lastOp (s : State) : (dropNewest s).lastOp = s.lastOp := rfl
@[simp] theorem dropNewest_irqStatus (s : State) : (dropNewest s).irqStatus = s.irqStatus := rfl
@[simp] theorem dropNewest_irqEnable (s : State) : (dropNewest s).irqEnable = s.irqEnable := rfl
@[simp] theorem dropNewest_hdrCfg (s : State) : (dropNewest s).hdrCfg = s.hdrCfg := rfl
@[simp] theorem dropNewest_ackFill (s : State) : (dropNewest s).ackFill = s.ackFill := rfl
@[simp] theorem dropNewest_rto (s : State) : (dropNewest s).rto = s.rto := rfl
@[simp] theorem dropNewest_tmrCnt (s : State) : (dropNewest s).tmrCnt = s.tmrCnt := rfl
@[simp] theorem dropNewest_tmrAct (s : State) : (dropNewest s).tmrAct = s.tmrAct := rfl
@[simp] theorem dropNewest_txLen (s : State) : (dropNewest s).txLen = s.txLen := rfl
@[simp] theorem dropNewest_txTotal (s : State) : (dropNewest s).txTotal = s.txTotal := rfl
@[simp] theorem dropNewest_txBase (s : State) : (dropNewest s).txBase = s.txBase := rfl
@[simp] theorem dropNewest_txNext (s : State) : (dropNewest s).txNext = s.txNext := rfl
@[simp] theorem dropNewest_rflag (s : State) : (dropNewest s).rflag = s.rflag := rfl
@[simp] theorem dropNewest_rxExpected (s : State) : (dropNewest s).rxExpected = s.rxExpected := rfl
@[simp] theorem dropNewest_rxLen (s : State) : (dropNewest s).rxLen = s.rxLen := rfl
@[simp] theorem dropNewest_la (s : State) : (dropNewest s).la = s.la := rfl
@[simp] theorem dropNewest_txFrames (s : State) : (dropNewest s).txFrames = s.txFrames := rfl
@[simp] theorem dropNewest_rxFrames (s : State) : (dropNewest s).rxFrames = s.rxFrames := rfl
@[simp] theorem dropNewest_timeouts (s : State) : (dropNewest s).timeouts = s.timeouts := rfl
@[simp] theorem dropNewest_txbuf (s : State) : (dropNewest s).txbuf = s.txbuf := rfl
@[simp] theorem dropNewest_rxbuf (s : State) : (dropNewest s).rxbuf = s.rxbuf := rfl
@[simp] theorem dropNewest_params (s : State) : (dropNewest s).params = s.params := rfl
@[simp] theorem dropNewest_linkIn (s : State) : (dropNewest s).linkIn = s.linkIn := rfl
@[simp] theorem dropNewest_linkOut (s : State) : (dropNewest s).linkOut = s.linkOut.dropLast := rfl
@[simp] theorem dropNewest_ready (s : State) : (dropNewest s).ready = s.ready := rfl
@[simp] theorem dropNewest_resp (s : State) : (dropNewest s).resp = s.resp := rfl
@[simp] theorem dropNewest_events (s : State) : (dropNewest s).events = s.events := rfl
@[simp] theorem dropNewest_agenda (s : State) : (dropNewest s).agenda = s.agenda := rfl
@[simp] theorem dropNewest_choiceIdx (s : State) : (dropNewest s).choiceIdx = s.choiceIdx := rfl

/-! ### setReady -/

@[simp] theorem setReady_ackZlp (level : Bool) (s : State) : (setReady level s).ackZlp = s.ackZlp := rfl
@[simp] theorem setReady_phase (level : Bool) (s : State) : (setReady level s).phase = s.phase := rfl
@[simp] theorem setReady_lastOp (level : Bool) (s : State) : (setReady level s).lastOp = s.lastOp := rfl
@[simp] theorem setReady_irqStatus (level : Bool) (s : State) : (setReady level s).irqStatus = s.irqStatus := rfl
@[simp] theorem setReady_irqEnable (level : Bool) (s : State) : (setReady level s).irqEnable = s.irqEnable := rfl
@[simp] theorem setReady_hdrCfg (level : Bool) (s : State) : (setReady level s).hdrCfg = s.hdrCfg := rfl
@[simp] theorem setReady_ackFill (level : Bool) (s : State) : (setReady level s).ackFill = s.ackFill := rfl
@[simp] theorem setReady_rto (level : Bool) (s : State) : (setReady level s).rto = s.rto := rfl
@[simp] theorem setReady_tmrCnt (level : Bool) (s : State) : (setReady level s).tmrCnt = s.tmrCnt := rfl
@[simp] theorem setReady_tmrAct (level : Bool) (s : State) : (setReady level s).tmrAct = s.tmrAct := rfl
@[simp] theorem setReady_txLen (level : Bool) (s : State) : (setReady level s).txLen = s.txLen := rfl
@[simp] theorem setReady_txTotal (level : Bool) (s : State) : (setReady level s).txTotal = s.txTotal := rfl
@[simp] theorem setReady_txBase (level : Bool) (s : State) : (setReady level s).txBase = s.txBase := rfl
@[simp] theorem setReady_txNext (level : Bool) (s : State) : (setReady level s).txNext = s.txNext := rfl
@[simp] theorem setReady_rflag (level : Bool) (s : State) : (setReady level s).rflag = s.rflag := rfl
@[simp] theorem setReady_rxExpected (level : Bool) (s : State) : (setReady level s).rxExpected = s.rxExpected := rfl
@[simp] theorem setReady_rxLen (level : Bool) (s : State) : (setReady level s).rxLen = s.rxLen := rfl
@[simp] theorem setReady_la (level : Bool) (s : State) : (setReady level s).la = s.la := rfl
@[simp] theorem setReady_txFrames (level : Bool) (s : State) : (setReady level s).txFrames = s.txFrames := rfl
@[simp] theorem setReady_rxFrames (level : Bool) (s : State) : (setReady level s).rxFrames = s.rxFrames := rfl
@[simp] theorem setReady_timeouts (level : Bool) (s : State) : (setReady level s).timeouts = s.timeouts := rfl
@[simp] theorem setReady_txbuf (level : Bool) (s : State) : (setReady level s).txbuf = s.txbuf := rfl
@[simp] theorem setReady_rxbuf (level : Bool) (s : State) : (setReady level s).rxbuf = s.rxbuf := rfl
@[simp] theorem setReady_params (level : Bool) (s : State) : (setReady level s).params = s.params := rfl
@[simp] theorem setReady_linkIn (level : Bool) (s : State) : (setReady level s).linkIn = s.linkIn := rfl
@[simp] theorem setReady_linkOut (level : Bool) (s : State) : (setReady level s).linkOut = s.linkOut := rfl
@[simp] theorem setReady_ready (level : Bool) (s : State) : (setReady level s).ready = level := rfl
@[simp] theorem setReady_resp (level : Bool) (s : State) : (setReady level s).resp = s.resp := rfl
@[simp] theorem setReady_events (level : Bool) (s : State) : (setReady level s).events = s.events := rfl
@[simp] theorem setReady_agenda (level : Bool) (s : State) : (setReady level s).agenda = s.agenda := rfl
@[simp] theorem setReady_choiceIdx (level : Bool) (s : State) : (setReady level s).choiceIdx = s.choiceIdx := rfl

/-! ### applyReset -/

@[simp] theorem applyReset_ackZlp (s : State) : (applyReset s).ackZlp = State.reset.ackZlp := rfl
@[simp] theorem applyReset_phase (s : State) : (applyReset s).phase = State.reset.phase := rfl
@[simp] theorem applyReset_lastOp (s : State) : (applyReset s).lastOp = State.reset.lastOp := rfl
@[simp] theorem applyReset_irqStatus (s : State) : (applyReset s).irqStatus = State.reset.irqStatus := rfl
@[simp] theorem applyReset_irqEnable (s : State) : (applyReset s).irqEnable = State.reset.irqEnable := rfl
@[simp] theorem applyReset_hdrCfg (s : State) : (applyReset s).hdrCfg = State.reset.hdrCfg := rfl
@[simp] theorem applyReset_ackFill (s : State) : (applyReset s).ackFill = State.reset.ackFill := rfl
@[simp] theorem applyReset_rto (s : State) : (applyReset s).rto = State.reset.rto := rfl
@[simp] theorem applyReset_tmrCnt (s : State) : (applyReset s).tmrCnt = State.reset.tmrCnt := rfl
@[simp] theorem applyReset_tmrAct (s : State) : (applyReset s).tmrAct = State.reset.tmrAct := rfl
@[simp] theorem applyReset_txLen (s : State) : (applyReset s).txLen = State.reset.txLen := rfl
@[simp] theorem applyReset_txTotal (s : State) : (applyReset s).txTotal = State.reset.txTotal := rfl
@[simp] theorem applyReset_txBase (s : State) : (applyReset s).txBase = State.reset.txBase := rfl
@[simp] theorem applyReset_txNext (s : State) : (applyReset s).txNext = State.reset.txNext := rfl
@[simp] theorem applyReset_rflag (s : State) : (applyReset s).rflag = State.reset.rflag := rfl
@[simp] theorem applyReset_rxExpected (s : State) : (applyReset s).rxExpected = State.reset.rxExpected := rfl
@[simp] theorem applyReset_rxLen (s : State) : (applyReset s).rxLen = State.reset.rxLen := rfl
@[simp] theorem applyReset_la (s : State) : (applyReset s).la = State.reset.la := rfl
@[simp] theorem applyReset_txFrames (s : State) : (applyReset s).txFrames = State.reset.txFrames := rfl
@[simp] theorem applyReset_rxFrames (s : State) : (applyReset s).rxFrames = State.reset.rxFrames := rfl
@[simp] theorem applyReset_timeouts (s : State) : (applyReset s).timeouts = State.reset.timeouts := rfl
@[simp] theorem applyReset_txbuf (s : State) : (applyReset s).txbuf = s.txbuf := rfl
@[simp] theorem applyReset_rxbuf (s : State) : (applyReset s).rxbuf = s.rxbuf := rfl
@[simp] theorem applyReset_params (s : State) : (applyReset s).params = s.params := rfl
@[simp] theorem applyReset_linkIn (s : State) : (applyReset s).linkIn = s.linkIn := rfl
@[simp] theorem applyReset_linkOut (s : State) : (applyReset s).linkOut = s.linkOut := rfl
@[simp] theorem applyReset_ready (s : State) : (applyReset s).ready = s.ready := rfl
@[simp] theorem applyReset_resp (s : State) : (applyReset s).resp = s.resp := rfl
@[simp] theorem applyReset_events (s : State) : (applyReset s).events = s.events := rfl
@[simp] theorem applyReset_agenda (s : State) : (applyReset s).agenda = s.agenda := rfl
@[simp] theorem applyReset_choiceIdx (s : State) : (applyReset s).choiceIdx = s.choiceIdx := rfl

end Sys2Proof.Machine
end

