-- ==== Sys2Proof/Laws/Ops.lean ====
section
/-! SUPPORT. For each shared operation, once, everything it can do: taking the head frame, Append, a buffer access, the
commands, the engine's own choice, and a step. -/

namespace Sys2Proof.Machine

/-! ## The head frame -/

theorem enabledFrame_eq_some_iff (i : Instr) (s : State) (f : Frame) :
    enabledFrame i s = some f ↔
      ∃ rest, s.linkIn = f :: rest ∧ classifyFrame s f = i ∧ (needsReady i = true → s.ready = true) := by
  unfold enabledFrame
  cases h : s.linkIn with
  | nil => simp
  | cons g rest =>
    simp only [Option.ite_none_right_eq_some, List.cons.injEq]
    constructor
    · rintro ⟨hc, hg⟩
      injection hg with hg
      subst hg
      exact ⟨rest, ⟨rfl, rfl⟩, hc⟩
    · rintro ⟨_, ⟨rfl, rfl⟩, hc⟩
      exact ⟨hc, rfl⟩

/-- An operation on the head frame either takes it where R99 enables the operation, or is not taken. -/
theorem onHeadFrame_cases (i : Instr) (effect : Frame → State → Result) (s : State) :
    (∃ f rest, s.linkIn = f :: rest ∧ classifyFrame s f = i ∧ (needsReady i = true → s.ready = true) ∧
        onHeadFrame i effect s = effect f (consume s)) ∨
      (enabledFrame i s = none ∧ onHeadFrame i effect s = .next s) := by
  unfold onHeadFrame
  cases h : enabledFrame i s with
  | none => exact .inr ⟨rfl, rfl⟩
  | some f =>
    obtain ⟨rest, hl, hc, hr⟩ := (enabledFrame_eq_some_iff i s f).1 h
    exact .inl ⟨f, rest, hl, hc, hr, rfl⟩

theorem onHeadFrame_of_enabled {i : Instr} {s : State} {f : Frame} {rest : List Frame} (effect : Frame → State → Result)
    (hl : s.linkIn = f :: rest) (hc : classifyFrame s f = i) (hr : needsReady i = true → s.ready = true) :
    onHeadFrame i effect s = effect f (consume s) := by
  rw [onHeadFrame, (enabledFrame_eq_some_iff i s f).2 ⟨rest, hl, hc, hr⟩]

/-! ## What Classify_frame says of the state (R99) -/

theorem classifyFrame_ackAccept {s : State} {f : Frame} (h : classifyFrame s f = .ackAccept) :
    s.phase = .sending ∧ classOf f = .packet ∧ frameAck f = seqOf s.txBase := by
  unfold classifyFrame at h
  split at h
  · cases h
  · split at h
    · split at h <;> cases h
    · cases h
    · cases h
    · next hc =>
      split at h
      · next hp =>
        split at h
        · next hm => exact ⟨hp, hc, by simpa [ackMatch, seqEq] using hm⟩
        · cases h
      · split at h <;> cases h

theorem classifyFrame_ackIgnore {s : State} {f : Frame} (h : classifyFrame s f = .ackIgnore) :
    s.phase = .sending ∧ classOf f = .packet ∧ frameAck f ≠ seqOf s.txBase := by
  unfold classifyFrame at h
  split at h
  · cases h
  · split at h
    · split at h <;> cases h
    · cases h
    · cases h
    · next hc =>
      split at h
      · next hp =>
        split at h
        · cases h
        · next hm => exact ⟨hp, hc, by simpa [ackMatch, seqEq] using hm⟩
      · split at h <;> cases h

theorem classifyFrame_rxAccept {s : State} {f : Frame} (h : classifyFrame s f = .rxAccept) :
    s.phase = .receiving ∧ classOf f = .packet ∧ frameSeq f = s.rxExpected := by
  unfold classifyFrame at h
  split at h
  · cases h
  · next hs =>
    split at h
    · split at h <;> cases h
    · cases h
    · cases h
    · next hc =>
      split at h
      · split at h <;> cases h
      · next hp =>
        split at h
        · next hm =>
          refine ⟨?_, hc, by simpa [seqEq] using hm⟩
          cases hq : s.phase <;> simp_all [State.stopped]
        · cases h

theorem classifyFrame_rxDupack {s : State} {f : Frame} (h : classifyFrame s f = .rxDupack) :
    s.phase = .receiving ∧ classOf f = .packet ∧ frameSeq f ≠ s.rxExpected := by
  unfold classifyFrame at h
  split at h
  · cases h
  · next hs =>
    split at h
    · split at h <;> cases h
    · cases h
    · cases h
    · next hc =>
      split at h
      · split at h <;> cases h
      · next hp =>
        split at h
        · cases h
        · next hm =>
          refine ⟨?_, hc, by simpa [seqEq] using hm⟩
          cases hq : s.phase <;> simp_all [State.stopped]

theorem classifyFrame_rxPeerClose {s : State} {f : Frame} (h : classifyFrame s f = .rxPeerClose) :
    s.phase = .receiving ∧ f = [] := by
  unfold classifyFrame at h
  split at h
  · cases h
  · next hs =>
    split at h
    · next hc =>
      split at h
      · cases h
      · next hp =>
        refine ⟨?_, (classOf_closeMarker_iff f).1 hc⟩
        cases hq : s.phase <;> simp_all [State.stopped]
    · cases h
    · cases h
    · split at h <;> split at h <;> cases h

/-! ## Append (R215) -/

/-- Append writes as many payload bytes as fit, from RX_LEN on, and says whether one was dropped. -/
theorem appendBytes_spec {limit : Nat} (hl : limit ≤ 65536) (bs : List Byte) (m : Memory) (len : BitVec 17)
    (h : len.toNat ≤ limit) :
    (appendBytes limit bs m len).1 = writeBytes m len.toNat (bs.take (limit - len.toNat)) ∧
      (appendBytes limit bs m len).2.1.toNat = min limit (len.toNat + bs.length) ∧
      ((appendBytes limit bs m len).2.2 = true ↔ limit < len.toNat + bs.length) := by
  induction bs generalizing m len with
  | nil =>
    refine ⟨by simp [appendBytes, writeBytes], by simp [appendBytes]; omega, ?_⟩
    simp [appendBytes]; omega
  | cons b bs ih =>
    rw [appendBytes]
    split
    · next hlt =>
      have h1 : (len + 1).toNat = len.toNat + 1 := by
        rw [BitVec.toNat_add]; simp; omega
      obtain ⟨e1, e2, e3⟩ := ih (Memory.write m len.toNat b) (len + 1) (by omega)
      refine ⟨?_, ?_, ?_⟩
      · rw [e1, h1, show limit - len.toNat = (limit - (len.toNat + 1)) + 1 by omega, List.take_succ_cons, writeBytes]
      · rw [e2, h1]; simp; omega
      · rw [e3, h1]; simp; omega
    · next hge =>
      obtain ⟨e1, e2, e3⟩ := ih m len h
      refine ⟨?_, ?_, ?_⟩
      · dsimp only
        rw [e1, show limit - len.toNat = 0 by omega]
        simp
      · dsimp only
        rw [e2]; simp; omega
      · simp; omega

/-! ## Buffer accesses -/

/-- A buffer read answers its value, a fault that names an unwritten byte, or a bus error. -/
theorem bufferRead_cases (space : Space) (m : Memory) (limit : Nat) (o : BitVec 16) (n : Nat) (s : State) :
    (∃ r, bufferRead space m limit o n s = .next (respond r s)) ∨
      (∃ a, bufferRead space m limit o n s = .fault (.unwrittenBufferRead space a)) := by
  unfold bufferRead
  split
  · split
    · exact .inl ⟨_, rfl⟩
    · next f hf =>
      obtain ⟨k, -, rfl, -⟩ := readBytes_error hf
      exact .inr ⟨_, rfl⟩
  · exact .inl ⟨_, rfl⟩

/-! ## The engine's own turn and a step -/

theorem step_nil {s : State} (h : s.agenda = []) : step s = engineTurn s := by
  rw [step, h]

theorem step_cons {s : State} {t : Turn} {rest : List Turn} (h : s.agenda = t :: rest) :
    step s = runTurn t { s with agenda := rest } := by
  rw [step, h]

/-- An engine turn runs one instruction from a state that differs at most in `choiceIdx`, or waits. -/
theorem engineTurn_cases (s : State) :
    engineTurn s = .next s ∨ ∃ i k, engineTurn s = exec i { s with choiceIdx := k } := by
  unfold engineTurn engineSelect
  cases s.txSendEnabled <;> cases frameChoice s with
  | none => first | exact .inl rfl | exact .inr ⟨_, s.choiceIdx, rfl⟩
  | some i => first | exact .inr ⟨_, s.choiceIdx, rfl⟩ | exact .inr ⟨_, s.choiceIdx + 1, rfl⟩

end Sys2Proof.Machine
end

