-- ==== Sys2Proof/Laws/Decode.lean ====
section
/-! SUPPORT. How the descriptor table of spec/30_encoding.md rule R97 reads a descriptor laid out as {WE, SZ, OFF}: the
lemmas that round trips of host accesses go through. -/

namespace Sys2Proof

theorem and_three_eq_zero_iff (o : BitVec 16) : o &&& 3#16 = 0#16 ↔ aligned 2 o = true := by
  simp only [aligned, beq_iff_eq]
  rw [← BitVec.toNat_inj, BitVec.toNat_and]
  have := Nat.and_two_pow_sub_one_eq_mod o.toNat 2
  simp at this ⊢
  omega

theorem and_one_eq_zero_iff (o : BitVec 16) : o &&& 1#16 = 0#16 ↔ aligned 1 o = true := by
  simp only [aligned, beq_iff_eq]
  rw [← BitVec.toNat_inj, BitVec.toNat_and]
  have := Nat.and_two_pow_sub_one_eq_mod o.toNat 1
  simp at this ⊢

/-- Every mask of R97 covers the five bits WE, SZ and OFF[17:16]. -/
theorem append_and_mask_eq_iff (t pt : BitVec 5) (o ml : BitVec 16) :
    ((t ++ o) &&& (0x1F#5 ++ ml) = pt ++ 0#16) ↔ (t = pt ∧ o &&& ml = 0#16) := by
  rw [BitVec.and_append, show (0x1F#5) = BitVec.allOnes 5 by rfl, BitVec.and_allOnes]
  constructor
  · intro h
    have hi := congrArg (fun x : BitVec (5 + 16) => x.extractLsb' 16 5) h
    have lo := congrArg (fun x : BitVec (5 + 16) => x.extractLsb' 0 16) h
    simp only [BitVec.extractLsb'_append_eq_left, BitVec.extractLsb'_append_eq_right] at hi lo
    exact ⟨hi, lo⟩
  · rintro ⟨rfl, h⟩
    rw [h]

/-- Whether a row matches, from the descriptor's top five bits and its offset in the window. -/
abbrev HreqRow.takes (t : BitVec 5) (o : BitVec 16) (r : HreqRow) : Bool :=
  t == r.pat.extractLsb' 16 5 && (o &&& r.mask.extractLsb' 0 16 == 0#16)

theorem HreqRow.hits_append {r : HreqRow} (hr : r ∈ hreqRows) (t : BitVec 5) (o : BitVec 16) :
    r.hits (t ++ o) = r.takes t o := by
  have key : r.mask = 0x1F#5 ++ r.mask.extractLsb' 0 16 ∧ r.pat = r.pat.extractLsb' 16 5 ++ 0#16 := by
    revert r; decide
  rw [Bool.eq_iff_iff]
  simp only [HreqRow.hits, HreqRow.takes, beq_iff_eq, Bool.and_eq_true]
  conv_lhs => rw [key.1, key.2]
  exact append_and_mask_eq_iff _ _ _ _

theorem hreqRows_find_append (t : BitVec 5) (o : BitVec 16) :
    hreqRows.find? (fun r => r.hits (t ++ o)) = hreqRows.find? (HreqRow.takes t o) := by
  have : ∀ l : List HreqRow, (∀ r ∈ l, r ∈ hreqRows) →
      l.find? (fun r => r.hits (t ++ o)) = l.find? (HreqRow.takes t o) := by
    intro l hl
    induction l with
    | nil => rfl
    | cons r l ih =>
      rw [List.find?_cons, List.find?_cons, HreqRow.hits_append (hl r (List.mem_cons_self ..)),
        ih fun r' hr' => hl r' (List.mem_cons_of_mem _ hr')]
  exact this _ fun _ h => h

/-- WE, SZ and OFF[17:16] of a descriptor. -/
abbrev hreqTop (we : Bool) (sz win : BitVec 2) : BitVec 5 := BitVec.ofBool we ++ sz ++ win

theorem hreqOf_offsetOf (we : Bool) (sz win : BitVec 2) (o : BitVec 16) :
    hreqOf we sz (offsetOf win o) = hreqTop we sz win ++ o := by
  apply BitVec.eq_of_getLsbD_eq
  intro i hi
  simp only [hreqTop, hreqOf, offsetOf, BitVec.getLsbD_cast, BitVec.getLsbD_append]
  by_cases h1 : i < 16
  · simp [h1, show i < 18 by omega]
  · by_cases h2 : i < 18
    · simp [h1, h2, show i - 16 < 2 by omega]
    · by_cases h3 : i < 20
      · simp [h1, h2, show ¬ i - 16 < 2 by omega, show i - 18 < 2 by omega, show i - 16 - 2 = i - 18 by omega]
      · simp [h1, h2, show ¬ i - 16 < 2 by omega, show ¬ i - 18 < 2 by omega, show ¬ i - 16 - 2 < 2 by omega,
          show i - 16 - 2 - 2 = i - 18 - 2 by omega]

theorem extract_offset (t : BitVec 5) (o : BitVec 16) : (t ++ o : BitVec 21).extractLsb' 0 16 = o :=
  BitVec.extractLsb'_append_eq_right

/-- The row that takes an access gives its instruction. -/
theorem decode_hreq_of_row {we : Bool} {sz win : BitVec 2} {o : BitVec 16} {w : Word} (k : HreqKind)
    (hk : (hreqRows.find? (HreqRow.takes (hreqTop we sz win) o)).map HreqRow.kind = some k) :
    decode (.hreq (hreqOf we sz (offsetOf win o)) w) = .ok (k.instr (hreqTop we sz win ++ o) w) := by
  rw [hreqOf_offsetOf, decode, decodeHreq, hreqRows_find_append]
  cases hf : hreqRows.find? (HreqRow.takes (hreqTop we sz win) o) with
  | none => rw [hf] at hk; cases hk
  | some r => rw [hf] at hk; injection hk with hk; subst hk; rfl

/-- The three fields of a descriptor are those it was laid out from. -/
theorem hreq_fields (we : Bool) (sz : BitVec 2) (off : BitVec 18) :
    hreqWe (hreqOf we sz off) = we ∧ hreqSz (hreqOf we sz off) = sz ∧ hreqOff (hreqOf we sz off) = off := by
  refine ⟨?_, ?_, ?_⟩
  · simp only [hreqWe, hreqOf, BitVec.getLsbD_cast, BitVec.getLsbD_append]
    cases we <;> simp
  · apply BitVec.eq_of_getLsbD_eq
    intro i hi
    simp only [hreqSz, hreqOf, BitVec.getLsbD_extractLsb', BitVec.getLsbD_cast, BitVec.getLsbD_append]
    simp [hi]
  · apply BitVec.eq_of_getLsbD_eq
    intro i hi
    simp only [hreqOff, hreqOf, BitVec.getLsbD_extractLsb', BitVec.getLsbD_cast, BitVec.getLsbD_append]
    simp [hi]

theorem offsetOf_extract (off : BitVec 18) : offsetOf (off.extractLsb' 16 2) (off.extractLsb' 0 16) = off := by
  apply BitVec.eq_of_getLsbD_eq
  intro i hi
  simp only [offsetOf, BitVec.getLsbD_cast, BitVec.getLsbD_append]
  by_cases h : i < 16
  · simp [h]
  · simp [h, show i - 16 < 2 by omega, show 16 + (i - 16) = i by omega]

theorem aligned_extract {k : Nat} (hk : k ≤ 16) (off : BitVec 18) : aligned k (off.extractLsb' 0 16) = aligned k off := by
  have h : off.toNat % 2 ^ 16 % 2 ^ k = off.toNat % 2 ^ k :=
    Nat.mod_mod_of_dvd _ (Nat.pow_dvd_pow 2 hk)
  simp only [aligned, BitVec.extractLsb'_toNat, Nat.shiftRight_zero, h]

/-- No row takes an access that is not legal, so it is BUS_ERROR (R97, R246). -/
theorem hreqRows_find_illegal {we : Bool} {sz : BitVec 2} {off : BitVec 18} (h : legalAccess we sz off = false) :
    hreqRows.find? (HreqRow.takes (hreqTop we sz (off.extractLsb' 16 2)) (off.extractLsb' 0 16)) = none := by
  rw [legalAccess] at h
  rw [← aligned_extract (k := 2) (by omega)] at h
  generalize ho : off.extractLsb' 0 16 = o at h ⊢
  have ha : aligned sz.toNat off = aligned sz.toNat o := by
    rw [← ho, aligned_extract (by omega)]
  rw [ha] at h
  clear ha ho
  generalize off.extractLsb' 16 2 = win at h ⊢
  have cases4 : ∀ x : BitVec 2, x = 0 ∨ x = 1 ∨ x = 2 ∨ x = 3 := by decide
  have h3 := and_three_eq_zero_iff o
  have h1 := and_one_eq_zero_iff o
  have h0 : aligned 0 o = true := by simp [aligned, Nat.mod_one]
  rw [List.find?_eq_none]
  intro r hr
  simp only [hreqRows, List.mem_cons, List.not_mem_nil, or_false] at hr
  cases we <;> rcases cases4 sz with rfl | rfl | rfl | rfl <;> rcases cases4 win with rfl | rfl | rfl | rfl <;>
    simp_all [HreqRow.takes, hreqTop] <;>
    (rcases hr with rfl | rfl | rfl | rfl | rfl | rfl | rfl | rfl | rfl | rfl | rfl <;> simp_all)

end Sys2Proof
end

