-- ==== Sys2Proof/Laws/PerInstr.lean ====
section
/-! SUPPORT. The family RoundTrip: a well-formed instruction is what the decoder reads from its own words, one lemma per
constructor (spec/30_encoding.md rules R95, R97, R98). -/

namespace Sys2Proof.Laws.RoundTrip

/-- The instruction is read back from its words. -/
def Statement (i : Instr) : Prop := i.wf = true → decode (encode i) = .ok i

theorem cmdNop : Statement .cmdNop := fun _ => rfl

theorem cmdTxStart : Statement .cmdTxStart := fun _ => rfl

theorem cmdRxStart : Statement .cmdRxStart := fun _ => rfl

theorem cmdClose : Statement .cmdClose := fun _ => rfl

theorem cmdIllegal (w : Word) : Statement (.cmdIllegal w) := by
  intro h
  simp only [Instr.wf, illegalCommandWord, decide_eq_true_eq] at h
  simp only [encode, decode, decodeCmd]
  split <;> first | omega | rfl

theorem nop : Statement .nop := fun _ => rfl

theorem txStart : Statement .txStart := fun _ => rfl

theorem rxStart : Statement .rxStart := fun _ => rfl

theorem close : Statement .close := fun _ => rfl

theorem illegalCmd : Statement .illegalCmd := fun _ => rfl

theorem txSend : Statement .txSend := fun _ => rfl

theorem ackAccept : Statement .ackAccept := fun _ => rfl

theorem ackIgnore : Statement .ackIgnore := fun _ => rfl

theorem tickCount : Statement .tickCount := fun _ => rfl

theorem timerExpire : Statement .timerExpire := fun _ => rfl

theorem tickIdle : Statement .tickIdle := fun _ => rfl

theorem sndPeerClosed : Statement .sndPeerClosed := fun _ => rfl

theorem rxAccept : Statement .rxAccept := fun _ => rfl

theorem rxDupack : Statement .rxDupack := fun _ => rfl

theorem rxPeerClose : Statement .rxPeerClose := fun _ => rfl

theorem frameShort : Statement .frameShort := fun _ => rfl

theorem frameOversize : Statement .frameOversize := fun _ => rfl

theorem frameStray : Statement .frameStray := fun _ => rfl

theorem regRead (off : BitVec 16) : Statement (.regRead off) := by
  intro h
  rw [Instr.wf, ← and_three_eq_zero_iff] at h
  rw [encode, decode_hreq_of_row .regRead (by simp [hreqRows, hreqTop, h]), HreqKind.instr, extract_offset]

theorem regWrite (off : BitVec 16) (w : Word) : Statement (.regWrite off w) := by
  intro h
  rw [Instr.wf, ← and_three_eq_zero_iff] at h
  rw [encode, decode_hreq_of_row .regWrite (by simp [hreqRows, hreqTop, h]), HreqKind.instr, extract_offset]

theorem txbufRd8 (o : BitVec 16) : Statement (.txbufRd8 o) := by
  intro _
  rw [encode, decode_hreq_of_row .txbufRd8 (by simp [hreqRows, hreqTop]), HreqKind.instr, extract_offset]

theorem txbufRd16 (o : BitVec 16) : Statement (.txbufRd16 o) := by
  intro h
  rw [Instr.wf, ← and_one_eq_zero_iff] at h
  rw [encode, decode_hreq_of_row .txbufRd16 (by simp [hreqRows, hreqTop, h]), HreqKind.instr, extract_offset]

theorem txbufRd32 (o : BitVec 16) : Statement (.txbufRd32 o) := by
  intro h
  rw [Instr.wf, ← and_three_eq_zero_iff] at h
  rw [encode, decode_hreq_of_row .txbufRd32 (by simp [hreqRows, hreqTop, h]), HreqKind.instr, extract_offset]

theorem txbufWr8 (o : BitVec 16) (w : Word) : Statement (.txbufWr8 o w) := by
  intro _
  rw [encode, decode_hreq_of_row .txbufWr8 (by simp [hreqRows, hreqTop]), HreqKind.instr, extract_offset]

theorem txbufWr16 (o : BitVec 16) (w : Word) : Statement (.txbufWr16 o w) := by
  intro h
  rw [Instr.wf, ← and_one_eq_zero_iff] at h
  rw [encode, decode_hreq_of_row .txbufWr16 (by simp [hreqRows, hreqTop, h]), HreqKind.instr, extract_offset]

theorem txbufWr32 (o : BitVec 16) (w : Word) : Statement (.txbufWr32 o w) := by
  intro h
  rw [Instr.wf, ← and_three_eq_zero_iff] at h
  rw [encode, decode_hreq_of_row .txbufWr32 (by simp [hreqRows, hreqTop, h]), HreqKind.instr, extract_offset]

theorem rxbufRd8 (o : BitVec 16) : Statement (.rxbufRd8 o) := by
  intro _
  rw [encode, decode_hreq_of_row .rxbufRd8 (by simp [hreqRows, hreqTop]), HreqKind.instr, extract_offset]

theorem rxbufRd16 (o : BitVec 16) : Statement (.rxbufRd16 o) := by
  intro h
  rw [Instr.wf, ← and_one_eq_zero_iff] at h
  rw [encode, decode_hreq_of_row .rxbufRd16 (by simp [hreqRows, hreqTop, h]), HreqKind.instr, extract_offset]

theorem rxbufRd32 (o : BitVec 16) : Statement (.rxbufRd32 o) := by
  intro h
  rw [Instr.wf, ← and_three_eq_zero_iff] at h
  rw [encode, decode_hreq_of_row .rxbufRd32 (by simp [hreqRows, hreqTop, h]), HreqKind.instr, extract_offset]

theorem busError (we : Bool) (sz : BitVec 2) (off : BitVec 18) : Statement (.busError we sz off) := by
  intro h
  simp only [Instr.wf, Bool.not_eq_true'] at h
  obtain ⟨hw, hs, ho⟩ := hreq_fields we sz off
  have hf := hreqRows_find_illegal h
  rw [← hreqRows_find_append, ← hreqOf_offsetOf, offsetOf_extract] at hf
  rw [encode, decode, decodeHreq, hf]
  simp only [hw, hs, ho]

end Sys2Proof.Laws.RoundTrip
end

