-- ==== Sys2Proof/Laws/Seqarith.lean ====
section
/-! SUPPORT. The spec lemmas of the retransmit flags and of TotalPkts (spec/41_seqarith.md rules R157, R160). -/

namespace Sys2Proof.Machine

theorem slot_lt (i : Nat) : slot i < 8 := Nat.mod_lt _ (by decide)

theorem one_shiftLeft_getLsbD {q j : Nat} (hq : q < 8) (hj : j < 8) : (1#8 <<< q).getLsbD j = decide (j = q) := by
  have : ∀ q < 8, ∀ j < 8, (1#8 <<< q).getLsbD j = decide (j = q) := by decide
  exact this q hq j hj

/-- Clearing a packet's flag clears its slot and no other. -/
theorem clearFlag_getLsbD (rflag : BitVec 8) (k : Nat) {j : Nat} (hj : j < 8) :
    (clearFlag rflag k).getLsbD j = (rflag.getLsbD j && decide (j ≠ slot k)) := by
  unfold clearFlag
  rw [BitVec.getLsbD_and, BitVec.getLsbD_not, one_shiftLeft_getLsbD (slot_lt k) hj]
  simp [hj]

/-- Setting a packet's flag sets its slot and no other. -/
theorem setFlag_getLsbD (rflag : BitVec 8) (k : Nat) {j : Nat} (hj : j < 8) :
    (setFlag rflag k).getLsbD j = (rflag.getLsbD j || decide (j = slot k)) := by
  unfold setFlag
  rw [BitVec.getLsbD_or, one_shiftLeft_getLsbD (slot_lt k) hj]

/-- Setting the flags of a run of packets sets the slots of those packets and no other. -/
theorem setFlags_getLsbD_iff (rflag : BitVec 8) (first n : Nat) {j : Nat} (hj : j < 8) :
    (setFlags rflag first n).getLsbD j = true ↔
      rflag.getLsbD j = true ∨ ∃ k, first ≤ k ∧ k < first + n ∧ slot k = j := by
  induction n generalizing rflag first with
  | zero => simp [setFlags]; omega
  | succ n ih =>
    rw [setFlags, ih, setFlag_getLsbD _ _ hj]
    simp only [Bool.or_eq_true, decide_eq_true_eq]
    constructor
    · rintro ((h | h) | ⟨k, h1, h2, h3⟩)
      · exact .inl h
      · exact .inr ⟨first, le_refl _, by omega, h.symm⟩
      · exact .inr ⟨k, by omega, by omega, h3⟩
    · rintro (h | ⟨k, h1, h2, h3⟩)
      · exact .inl (.inl h)
      · by_cases hk : k = first
        · subst hk; exact .inl (.inr h3.symm)
        · exact .inr ⟨k, by omega, by omega, h3⟩

theorem totalPkts_toNat (len : BitVec 17) : (totalPkts len).toNat = (len.toNat + 63) / 64 := by
  have := len.isLt
  rw [totalPkts, BitVec.toNat_ofNat]
  omega

/-- Only the empty stream has no fragments (R157). -/
theorem totalPkts_eq_zero_iff (len : BitVec 17) : totalPkts len = 0 ↔ len = 0 := by
  rw [← BitVec.toNat_inj, ← BitVec.toNat_inj, totalPkts_toNat]
  simp
  omega

end Sys2Proof.Machine
end

