-- ==== Sys2Proof/Safety.lean ====
section
/-! DEFINITION. What counts as a safe state and a safe step, in the terms the statements use: the invariants of the
block (spec/41_seqarith.md rule R162, spec/10_state.md rules R30, R36, R38, R39, spec/20_memory.md rule R77). -/

namespace Sys2Proof.Machine

/-- The buffers keep their canonical form, and no byte stands outside a buffer (R45, R66, R67). -/
abbrev State.BuffersOk (s : State) : Prop :=
  Memory.wf s.txbuf = true ∧ Memory.wf s.rxbuf = true ∧
    (∀ c ∈ s.txbuf, c.1 < s.params.txbufBytes) ∧ (∀ c ∈ s.rxbuf, c.1 < s.params.rxbufBytes)

/-- The window invariants of R162 while SENDING, with the length of the running transfer fixed (R32). -/
abbrev State.WindowOk (s : State) : Prop :=
  s.phase = .sending →
    s.txBase.toNat ≤ s.txNext.toNat ∧ s.txNext.toNat ≤ s.txTotal.toNat ∧
      s.txNext.toNat - s.txBase.toNat ≤ 8 ∧ (s.tmrAct = true ↔ s.txBase ≠ s.txNext) ∧
      s.txBase.toNat < s.txTotal.toNat ∧
      s.txTotal = totalPkts s.txLen ∧ s.txLen.toNat ≤ s.params.txbufBytes

/-- At SEND_DONE every packet is acknowledged and the window is empty (R180). -/
abbrev State.DoneOk (s : State) : Prop :=
  s.phase = .sendDone → s.txBase = s.txTotal ∧ s.txNext = s.txTotal

/-- A set retransmit flag belongs to a packet of the transfer inside `TX_BASE .. TX_BASE + 7` (R36). -/
abbrev State.FlagsOk (s : State) : Prop :=
  s.phase = .sending ∨ s.phase = .sendDone →
    ∀ j < 8, s.rflag.getLsbD j = true →
      ∃ k < s.txTotal.toNat, s.txBase.toNat ≤ k ∧ k < s.txBase.toNat + 8 ∧ slot k = j

/-- TIMER_COUNT is 0 while the timer is disarmed (R30), and the timer is armed only while SENDING (R182). -/
abbrev State.TimerOk (s : State) : Prop :=
  (s.tmrAct = false → s.tmrCnt = 0) ∧ (s.phase ≠ .sending → s.tmrAct = false)

/-- RX_LEN stays inside the buffer and counts bytes that hold a value (R38, R215); LA is NONE or a frame of 7 to 71
bytes (R39); while RECEIVING it is never NONE and acknowledges the packet before RX_EXPECTED (R212, R213). -/
abbrev State.ReceiverOk (s : State) : Prop :=
  s.rxLen.toNat ≤ s.params.rxbufBytes ∧ (∀ a < s.rxLen.toNat, (Memory.read s.rxbuf a).isSome = true) ∧
    (∀ f ∈ s.la.toList, 7 ≤ f.length ∧ f.length ≤ 71) ∧
    (s.phase = .receiving → s.la.map frameAck = some (s.rxExpected - 1))

/-- Every frame on link-out has 7 to 71 bytes (R77). -/
abbrev State.LinkOk (s : State) : Prop := ∀ f ∈ s.linkOut, 7 ≤ f.length ∧ f.length ≤ 71

/-- The invariant of the block. -/
abbrev State.Inv (s : State) : Prop :=
  s.params.Legal ∧ s.BuffersOk ∧ s.WindowOk ∧ s.DoneOk ∧ s.FlagsOk ∧ s.TimerOk ∧ s.ReceiverOk ∧ s.LinkOk

/-- The next turn is one some agent can present: an input that decodes (R98, R100). -/
abbrev State.TurnDecodes (s : State) : Prop :=
  ∀ r rest, s.agenda = .input r :: rest → ∃ i, decode r = .ok i

/-- A step that stops with no fault. -/
abbrev State.Safe (s : State) : Prop := ∀ f, step s ≠ .fault f

end Sys2Proof.Machine
end

