-- ==== Sys2Proof/Certificates/Slice0/Obligations.lean ====
section
/-! DEFINITION. The statements for the provers. A statement about a next state gives that state whole, as a record
update of the state before: what the update does not name is unchanged (every register, every event, every byte of
memory, the link and the schedule). `resp` is the response the bus gives the host (R62, R69) and `events` the event
history (R271); that they are fields is the model's choice (notes/assumptions/7.md, 8.md), and they are named where
they change. -/

open Sys2Proof Sys2Proof.Machine

namespace Sys2Proof.Claims

/-- The data frame R171 builds for packet TX_NEXT, its header bytes written out. -/
abbrev dataFrame (s : State) (payload : List Byte) : Frame :=
  [s.hdrCfg.extractLsb' 0 8, s.hdrCfg.extractLsb' 8 8, s.txNext.setWidth 8, 0x00,
   s.hdrCfg.extractLsb' 16 8, s.hdrCfg.extractLsb' 24 8,
   if s.rflag.getLsbD (s.txNext.toNat % 8) then 0x01 else 0x00] ++ payload

/-- The ack frame R211 builds for `n`, its header bytes written out. -/
abbrev ackFrameFor (s : State) (n : Byte) : Frame :=
  [s.hdrCfg.extractLsb' 0 8, s.hdrCfg.extractLsb' 8 8, 0x00, n,
   s.hdrCfg.extractLsb' 16 8, s.hdrCfg.extractLsb' 24 8, 0x00] ++
    (if s.ackZlp then [] else List.replicate 64 s.ackFill)

/-- No transfer runs. -/
abbrev Stopped (s : State) : Prop := s.phase = .idle ∨ s.phase = .sendDone ∨ s.phase = .recvDone

/-- The frame is a decodable packet (R93). -/
abbrev IsPacket (f : Frame) : Prop := 7 ≤ f.length ∧ f.length ≤ 71

/-- TX_SEND is enabled (R172), in the spec's own terms. -/
abbrev MaySend (s : State) : Prop :=
  s.phase = .sending ∧ (s.txNext.setWidth 8 - s.txBase.setWidth 8 : BitVec 8).toNat < 8 ∧
    s.txNext.toNat < s.txTotal.toNat ∧ s.ready = true

/-- The offset and length of the fragment TX_SEND reads (R158, R159). -/
abbrev fragmentAt (s : State) : Nat × Nat :=
  (64 * s.txNext.toNat % 65536, min 64 (s.txLen.toNat - 64 * s.txNext.toNat))

/-- ILLEGAL_CMD after a host write of CMD (R250). -/
abbrev refusedCommand (info : Option Nat) (s : State) : State :=
  { s with irqStatus := s.irqStatus ||| 0x20, events := s.events ++ [⟨.illegalCmd, info⟩], lastOp := 0x0F,
           resp := .writeDone }

/-- A timer tick that counts or expires finds the timer armed on a window that is not empty (R176, R177). -/
abbrev TimerRuns (s : State) : Prop := s.phase = .sending ∧ s.tmrAct = true ∧ s.txBase ≠ s.txNext

end Sys2Proof.Claims

open Sys2Proof.Claims

/-! ## Encoding -/

/-- R95, R97, R98: every well-formed instruction, with every operand, is read back from its own words. -/
def Obligations.DecodeReadsBackEveryEncodedInstruction : Prop :=
  ∀ i : Instr, i.wf = true → decode (encode i) = .ok i

/-- R64, R96, R97: the decoder answers only instructions that have an encoding of their own row; in particular BUS_ERROR
and ILLEGAL_CMD only where no other row matches. -/
def Obligations.EveryDecodedInstructionIsWellFormed : Prop :=
  ∀ (r : RawInput) (i : Instr), decode r = .ok i → i.wf = true

/-- No bit of a command word, an operation code or a descriptor is dropped by decoding; write data is kept by the rows
that write. -/
def Obligations.EncodingADecodedInputGivesItBack : Prop :=
  (∀ w i, decode (.cmd w) = .ok i → encode i = .cmd w) ∧
  (∀ c i, decode (.op c) = .ok i → encode i = .op c) ∧
  (∀ h w i, decode (.hreq h w) = .ok i →
    (encode i = .hreq h 0 ∨ encode i = .hreq h w) ∧
    (hreqWe h = true → (∃ r ∈ hreqRows, r.hits h = true) → encode i = .hreq h w))

/-- R97: no descriptor matches two rows of the table. -/
def Obligations.NoTwoDescriptorRowsMatchOneAccess : Prop :=
  ∀ (h : BitVec 21) (r r' : HreqRow), r ∈ hreqRows → r' ∈ hreqRows → r.hits h = true → r'.hits h = true → r = r'

/-- R95, R96, R97, R98: six words written out from the spec's tables, and the code 0x17 that R98 does not list. R98 says
only that such a code is never produced; that decoding refuses it is the model's choice of notes/assumptions/17.md. -/
def Obligations.WordsOfTheSpecDecodeToTheirInstructions : Prop :=
  decode (.cmd 0x00000001) = .ok .cmdTxStart ∧
  decode (.cmd 0x00000101) = .ok (.cmdIllegal 0x00000101) ∧
  decode (.op 0x14) = .ok .timerExpire ∧
  decode (.op 0x17) = .error (.unlistedOpCode 0x17) ∧
  decode (.hreq 0x18001C 20) = .ok (.regWrite 0x001C 20) ∧
  decode (.hreq 0x0A0004 0) = .ok (.rxbufRd32 0x0004) ∧
  decode (.hreq 0x090002 0) = .ok (.busError false 2 0x10002)

/-- R64, R67, R68, R246: which accesses are bus errors whatever the buffers' sizes: SZ = 3, the reserved window, a narrow
access of the register window, a misaligned access, and a write of RXBUF. -/
def Obligations.IllegalAccessesDecodeToBusError : Prop :=
  ∀ (we : Bool) (sz win : BitVec 2) (o : BitVec 16) (w : Word),
    (sz = 3 ∨ win = 3 ∨ (win = 0 ∧ sz ≠ 2) ∨ o.toNat % 2 ^ sz.toNat ≠ 0 ∨ (win = 2 ∧ we = true)) →
    decode (.hreq (hreqOf we sz (offsetOf win o)) w) = .ok (.busError we sz (offsetOf win o))

/-! ## Codec -/

/-- R133, both directions. -/
def Obligations.CodecLawBothWays : Prop :=
  (∀ p : Packet, p.payload.length ≤ 64 →
    ∃ f, encodePacket p = .ok f ∧
      decodeFrame f = .pkt
        { sourcePort := p.sourcePort % 256, destPort := p.destPort % 256, seq := p.seq % 256, ack := p.ack % 256,
          headerLength := p.headerLength % 256, windowSize := p.windowSize % 256,
          retransmitFlag := p.retransmitFlag % 2, payload := p.payload }) ∧
  (∀ f : Frame, IsPacket f → (f.getD 6 0 = 0x00 ∨ f.getD 6 0 = 0x01) →
    ∃ q, decodeFrame f = .pkt q ∧ encodePacket q = .ok f)

/-- R131: Decode answers NONE on the empty frame, SHORT below 7 bytes, and else takes the fields by position. -/
def Obligations.DecodeTakesFieldsByPosition : Prop :=
  decodeFrame [] = .none ∧
  (∀ f : Frame, 1 ≤ f.length → f.length < 7 → decodeFrame f = .short) ∧
  (∀ (b0 b1 b2 b3 b4 b5 b6 : Byte) (payload : List Byte),
    decodeFrame (b0 :: b1 :: b2 :: b3 :: b4 :: b5 :: b6 :: payload) =
      .pkt { sourcePort := b0.toNat, destPort := b1.toNat, seq := b2.toNat, ack := b3.toNat,
             headerLength := b4.toNat, windowSize := b5.toNat, retransmitFlag := b6.toNat, payload := payload })

/-- R161: under the window invariant the comparator modulo 256 is the absolute test. -/
def Obligations.WindowComparatorIsTheAbsoluteTest : Prop :=
  ∀ base next : BitVec 16, base.toNat ≤ next.toNat → next.toNat - base.toNat ≤ 8 →
    (seqDist (seqOf next) (seqOf base)).toNat = next.toNat - base.toNat ∧
    (winSpace base next = true ↔ next.toNat < base.toNat + 8)

/-! ## Steps -/

/-- R11, R12: a step runs the instruction its input decodes to, from the state with that turn taken off the agenda (the
schedule of notes/assumptions/1.md). -/
def Obligations.StepRunsTheDecodedInstruction : Prop :=
  ∀ (s : State) (r : RawInput) (rest : List Turn) (i : Instr),
    s.agenda = .input r :: rest → decode r = .ok i → step s = exec i { s with agenda := rest }

/-- R99, R176, R177, R178: a tick runs TIMER_EXPIRE, TICK_COUNT or TICK_IDLE, as Classify_tick says. -/
def Obligations.ATickRunsTheOperationItEnables : Prop :=
  ∀ (s : State) (rest : List Turn), s.agenda = .tick :: rest →
    (TimerRuns s → s.tmrCnt.toNat ≤ 1 → step s = exec .timerExpire { s with agenda := rest }) ∧
    (TimerRuns s → 1 < s.tmrCnt.toNat → step s = exec .tickCount { s with agenda := rest }) ∧
    (¬ TimerRuns s → step s = exec .tickIdle { s with agenda := rest })

/-- R99, R181: on a turn of its own the engine takes some enabled operation, TX_SEND or the one its head frame enables,
whatever the free value Config.engineChoice says; with none enabled nothing changes. (That the empty agenda is such a
turn is the model's choice, notes/assumptions/2.md.) -/
def Obligations.TheEngineTakesSomeEnabledOperation : Prop :=
  ∀ s u : State, (s.agenda = [] ∧ u = s) ∨ (∃ rest, s.agenda = .engine :: rest ∧ u = { s with agenda := rest }) →
    (step s = .next u ∧ ¬ MaySend u ∧
      (∀ f rest, u.linkIn = f :: rest → needsReady (classifyFrame u f) = true ∧ u.ready = false)) ∨
    (∃ i k, step s = exec i { u with choiceIdx := k } ∧
      ((i = .txSend ∧ MaySend u) ∨
        ∃ f rest, u.linkIn = f :: rest ∧ i = classifyFrame u f ∧ (needsReady i = true → u.ready = true)))

/-- R76, R77, R102: what the LINK agent's steps do, and that they touch nothing else. (Which frame it takes or drops is
the model's choice, notes/assumptions/18.md.) -/
def Obligations.LinkStepsTouchOnlyTheirPort : Prop :=
  ∀ (s : State) (rest : List Turn),
    (∀ f, s.agenda = .deliver f :: rest → step s = .next { s with agenda := rest, linkIn := s.linkIn ++ [f] }) ∧
    (s.agenda = .take :: rest → step s = .next { s with agenda := rest, linkOut := s.linkOut.tail }) ∧
    (s.agenda = .drop :: rest → step s = .next { s with agenda := rest, linkOut := s.linkOut.dropLast }) ∧
    (∀ b, s.agenda = .setReady b :: rest → step s = .next { s with agenda := rest, ready := b })

/-! ## Reset -/

/-- R300, R302: reset at any step gives every register its reset value and LA NONE, and touches neither the buffers nor
the link. That it also leaves the host's last response, the event history and the schedule is the model's choice
(notes/assumptions/1.md, 7.md, 8.md, 21.md). -/
def Obligations.ResetAtAnyStepGivesTheResetValues : Prop :=
  ∀ (s : State) (rest : List Turn), s.agenda = .reset :: rest →
    step s = .next
      { s with agenda := rest, ackZlp := false, phase := .idle, lastOp := 0xFF, irqStatus := 0x00, irqEnable := 0x00,
               hdrCfg := 0x08070000, ackFill := 0x00, rto := 10000, tmrCnt := 0, tmrAct := false, txLen := 0,
               txTotal := 0, txBase := 0, txNext := 0, rflag := 0x00, rxExpected := 0, rxLen := 0, la := none,
               txFrames := 0, rxFrames := 0, timeouts := 0 }

/-- R49, R44: what a read of each register returns right after a reset, at every offset of the window. -/
def Obligations.AfterResetEveryOffsetReadsItsMapValue : Prop :=
  ∀ (s : State) (off : BitVec 16), off.toNat % 4 = 0 →
    exec (.regRead off) (applyReset s) = .next
      { applyReset s with resp := .readDone (if off = 0x008 then 0x0000FF00 else if off = 0x014 then 0x08070000
          else if off = 0x01C then 0x00002710 else 0x00000000) }

/-- The invariant of Safety.lean holds at power-on. -/
def Obligations.ResetMeetsTheInvariant : Prop := State.reset.Inv

/-! ## Commands -/

/-- R248. (`resp` is where the model holds the bus's response to the write, notes/assumptions/7.md.) -/
def Obligations.NopWritesLastOpOnly : Prop :=
  ∀ s : State, exec .cmdNop s = .next { s with lastOp := 0x00, resp := .writeDone }

/-- R249: STATE, the timer and LAST_OP, in every STATE. -/
def Obligations.CloseGoesIdleAndDisarms : Prop :=
  ∀ s : State,
    exec .cmdClose s = .next
      { s with phase := .idle, tmrAct := false, tmrCnt := 0, lastOp := 0x03, resp := .writeDone }

/-- R170, with R157 for TX_TOTAL: where TX_START is legal, and the ILLEGAL_CMD it is otherwise. -/
def Obligations.TxStartOpensTheWindowOrIsIllegal : Prop :=
  ∀ (s : State),
    (Stopped s → s.txLen.toNat ≤ s.params.txbufBytes →
      exec .cmdTxStart s = .next
        { s with txTotal := BitVec.ofNat 16 ((s.txLen.toNat + 63) / 64), txBase := 0, txNext := 0,
                 tmrAct := false, tmrCnt := 0, rflag := 0x00, txFrames := 0, rxFrames := 0, timeouts := 0,
                 phase := if s.txLen = 0 then .sendDone else .sending,
                 irqStatus := if s.txLen = 0 then s.irqStatus ||| 0x01 else s.irqStatus,
                 events := if s.txLen = 0 then s.events ++ [⟨.txDone, none⟩] else s.events,
                 lastOp := 0x01, resp := .writeDone }) ∧
    (¬ (Stopped s ∧ s.txLen.toNat ≤ s.params.txbufBytes) →
      exec .cmdTxStart s = .next (refusedCommand (some 1) s))

/-- R210, with R211 for the initial ack: where RX_START is legal, and the ILLEGAL_CMD it is otherwise. -/
def Obligations.RxStartBuildsTheInitialAckOrIsIllegal : Prop :=
  ∀ (s : State),
    (Stopped s →
      exec .cmdRxStart s = .next
        { s with rxExpected := 0, rxLen := 0, la := some (ackFrameFor s 0xFF), txFrames := 0, rxFrames := 0,
                 timeouts := 0, phase := .receiving, lastOp := 0x02, resp := .writeDone }) ∧
    (¬ Stopped s → exec .cmdRxStart s = .next (refusedCommand (some 2) s))

/-- R250: a refused command word sets IRQ_STATUS[5] and LAST_OP and changes nothing else. -/
def Obligations.IllegalCommandsOnlyRaiseTheirEvent : Prop :=
  ∀ s : State,
    (∀ w : Word, 3 < w.toNat → exec (.cmdIllegal w) s = .next (refusedCommand (some w.toNat) s)) ∧
    (¬ (Stopped s ∧ s.txLen.toNat ≤ s.params.txbufBytes) →
      exec .cmdTxStart s = .next (refusedCommand (some 1) s)) ∧
    (¬ Stopped s → exec .cmdRxStart s = .next (refusedCommand (some 2) s))

/-- R98, R247: the operation codes of the five commands. That such a row stands for the host's CMD write that runs it,
and that ILLEGAL_CMD's row names no refused word, are the model's choices of notes/assumptions/4.md. -/
def Obligations.OperationRowsOfCommandsRunTheirCommand : Prop :=
  ∀ s : State,
    (∃ t, exec .nop s = .next t ∧ exec .cmdNop s = .next t) ∧
    (∃ t, exec .close s = .next t ∧ exec .cmdClose s = .next t) ∧
    (Stopped s → s.txLen.toNat ≤ s.params.txbufBytes → ∃ t, exec .txStart s = .next t ∧ exec .cmdTxStart s = .next t) ∧
    (Stopped s → ∃ t, exec .rxStart s = .next t ∧ exec .cmdRxStart s = .next t) ∧
    exec .illegalCmd s = .next (refusedCommand none s)

/-! ## Host accesses -/

/-- R241, with the fields of R22 to R44: what a read of each register returns, and that nothing but the response
changes. -/
def Obligations.RegisterReadsReturnTheMapAndChangeNothing : Prop :=
  ∀ s : State,
    (∀ (off : BitVec 16) (v : Word),
      (off, v) ∈
        [(0x000, if s.ackZlp then 1 else 0), (0x004, 0),
         (0x008, BitVec.ofNat 32 (256 * s.lastOp.toNat + (if s.tmrAct then 8 else 0) +
            (match s.phase with | .idle => 0 | .sending => 1 | .sendDone => 2 | .receiving => 3 | .recvDone => 4))),
         (0x00C, s.irqStatus.setWidth 32), (0x010, s.irqEnable.setWidth 32), (0x014, s.hdrCfg),
         (0x018, s.ackFill.setWidth 32), (0x01C, s.rto), (0x020, s.tmrCnt), (0x024, s.txLen.setWidth 32),
         (0x028, s.txTotal.setWidth 32), (0x02C, s.txBase.setWidth 32), (0x030, s.txNext.setWidth 32),
         (0x034, s.rflag.setWidth 32), (0x038, s.rxExpected.setWidth 32), (0x03C, s.rxLen.setWidth 32),
         (0x040, (match s.la with | none => 0 | some f => f.getD 3 0).setWidth 32),
         (0x044, s.txFrames), (0x048, s.rxFrames), (0x04C, s.timeouts)] →
      exec (.regRead off) s = .next { s with resp := .readDone v }) ∧
    (∀ off : BitVec 16, off.toNat % 4 = 0 → 0x050 ≤ off.toNat →
      exec (.regRead off) s = .next { s with resp := .readDone 0 })

/-- R242: what a write of each register does; the command is that of the word written (R247). -/
def Obligations.RegisterWritesFollowTheirAccessType : Prop :=
  ∀ (s : State) (w : Word),
    exec (.regWrite 0x000 w) s = .next { s with ackZlp := w.getLsbD 0, resp := .writeDone } ∧
    exec (.regWrite 0x004 w) s = exec (decodeCmd w) s ∧
    exec (.regWrite 0x00C w) s =
      .next { s with irqStatus := s.irqStatus &&& ~~~(w.setWidth 8), resp := .writeDone } ∧
    exec (.regWrite 0x010 w) s = .next { s with irqEnable := w.setWidth 8, resp := .writeDone } ∧
    exec (.regWrite 0x014 w) s = .next { s with hdrCfg := w, resp := .writeDone } ∧
    exec (.regWrite 0x018 w) s = .next { s with ackFill := w.setWidth 8, resp := .writeDone } ∧
    exec (.regWrite 0x01C w) s = .next { s with rto := w, resp := .writeDone } ∧
    exec (.regWrite 0x024 w) s =
      .next { s with txLen := if s.phase = .sending then s.txLen else w.setWidth 17, resp := .writeDone } ∧
    (∀ off : BitVec 16, off.toNat % 4 = 0 →
      off ∉ [0x000, 0x004, 0x00C, 0x010, 0x014, 0x018, 0x01C, 0x024] →
      exec (.regWrite off w) s = .next { s with resp := .writeDone })

/-- R243: a read past the end of TXBUF is a bus error; else, where every byte holds a value, the read is little-endian and
changes nothing but the response. -/
def Obligations.TxbufReadsAreLittleEndian : Prop :=
  ∀ (s : State) (o : BitVec 16),
    (∀ (i : Instr) (n : Nat), (i, n) ∈ [(Instr.txbufRd8 o, 1), (Instr.txbufRd16 o, 2), (Instr.txbufRd32 o, 4)] →
      s.params.txbufBytes < o.toNat + n → exec i s = .next { s with resp := .readError 0 }) ∧
    (∀ b0 b1 b2 b3 : Byte, Memory.read s.txbuf o.toNat = some b0 →
      (o.toNat + 1 ≤ s.params.txbufBytes →
        exec (.txbufRd8 o) s = .next { s with resp := .readDone (b0.setWidth 32) }) ∧
      (Memory.read s.txbuf (o.toNat + 1) = some b1 →
        (o.toNat % 2 = 0 → o.toNat + 2 ≤ s.params.txbufBytes →
          exec (.txbufRd16 o) s = .next { s with resp := .readDone ((b1 ++ b0).setWidth 32) }) ∧
        (Memory.read s.txbuf (o.toNat + 2) = some b2 → Memory.read s.txbuf (o.toNat + 3) = some b3 →
          o.toNat % 4 = 0 → o.toNat + 4 ≤ s.params.txbufBytes →
          exec (.txbufRd32 o) s = .next { s with resp := .readDone (b3 ++ b2 ++ b1 ++ b0) })))

/-- R245: a read past the end of RXBUF is a bus error; else, where every byte holds a value, the read is little-endian and
changes nothing but the response. -/
def Obligations.RxbufReadsAreLittleEndian : Prop :=
  ∀ (s : State) (o : BitVec 16),
    (∀ (i : Instr) (n : Nat), (i, n) ∈ [(Instr.rxbufRd8 o, 1), (Instr.rxbufRd16 o, 2), (Instr.rxbufRd32 o, 4)] →
      s.params.rxbufBytes < o.toNat + n → exec i s = .next { s with resp := .readError 0 }) ∧
    (∀ b0 b1 b2 b3 : Byte, Memory.read s.rxbuf o.toNat = some b0 →
      (o.toNat + 1 ≤ s.params.rxbufBytes →
        exec (.rxbufRd8 o) s = .next { s with resp := .readDone (b0.setWidth 32) }) ∧
      (Memory.read s.rxbuf (o.toNat + 1) = some b1 →
        (o.toNat % 2 = 0 → o.toNat + 2 ≤ s.params.rxbufBytes →
          exec (.rxbufRd16 o) s = .next { s with resp := .readDone ((b1 ++ b0).setWidth 32) }) ∧
        (Memory.read s.rxbuf (o.toNat + 2) = some b2 → Memory.read s.rxbuf (o.toNat + 3) = some b3 →
          o.toNat % 4 = 0 → o.toNat + 4 ≤ s.params.rxbufBytes →
          exec (.rxbufRd32 o) s = .next { s with resp := .readDone (b3 ++ b2 ++ b1 ++ b0) })))

/-- R244: a write of TXBUF stores exactly the bytes of the access, in every STATE; one past the end is a bus error. -/
def Obligations.TxbufWritesStoreExactlyTheirBytes : Prop :=
  ∀ (s : State) (o : BitVec 16) (w : Word) (i : Instr) (n : Nat),
    (i, n) ∈ [(Instr.txbufWr8 o w, 1), (Instr.txbufWr16 o w, 2), (Instr.txbufWr32 o w, 4)] →
    (s.params.txbufBytes < o.toNat + n → exec i s = .next { s with resp := .writeError }) ∧
    (o.toNat % n = 0 → o.toNat + n ≤ s.params.txbufBytes →
      ∃ m, exec i s = .next { s with txbuf := m, resp := .writeDone } ∧
        ∀ a, Memory.read m a =
          if o.toNat ≤ a ∧ a < o.toNat + n then some (w.extractLsb' (8 * (a - o.toNat)) 8) else Memory.read s.txbuf a)

/-- R69, R246: the error response, and no state change: a BUS_ERROR descriptor, and a buffer access that passes its
buffer's end. -/
def Obligations.BusErrorsChangeNothingButTheResponse : Prop :=
  ∀ s : State,
    (∀ sz off, exec (.busError true sz off) s = .next { s with resp := .writeError } ∧
      exec (.busError false sz off) s = .next { s with resp := .readError 0 }) ∧
    (∀ (o : BitVec 16) (i : Instr) (n : Nat),
      ((i, n) ∈ [(Instr.txbufRd8 o, 1), (Instr.txbufRd16 o, 2), (Instr.txbufRd32 o, 4)] ∧
          s.params.txbufBytes < o.toNat + n) ∨
        ((i, n) ∈ [(Instr.rxbufRd8 o, 1), (Instr.rxbufRd16 o, 2), (Instr.rxbufRd32 o, 4)] ∧
          s.params.rxbufBytes < o.toNat + n) →
      exec i s = .next { s with resp := .readError 0 }) ∧
    (∀ (o : BitVec 16) (w : Word) (i : Instr) (n : Nat),
      (i, n) ∈ [(Instr.txbufWr8 o w, 1), (Instr.txbufWr16 o w, 2), (Instr.txbufWr32 o w, 4)] →
      s.params.txbufBytes < o.toNat + n → exec i s = .next { s with resp := .writeError })

/-- R81: a host read, or TX_SEND, of a byte that holds no value faults, naming the buffer and an offset. That the offset
named is the first (lowest) one that holds no value is the model's choice of notes/assumptions/11.md. -/
def Obligations.ReadingAByteWithNoValueFaults : Prop :=
  (∀ (s : State) (o : BitVec 16) (i : Instr) (n k : Nat),
    (i, n) ∈ [(Instr.txbufRd8 o, 1), (Instr.txbufRd16 o, 2), (Instr.txbufRd32 o, 4)] →
    o.toNat % n = 0 → o.toNat + n ≤ s.params.txbufBytes → k < n →
    (∀ j < k, (Memory.read s.txbuf (o.toNat + j)).isSome = true) → Memory.read s.txbuf (o.toNat + k) = none →
    exec i s = .fault (.unwrittenBufferRead .txbuf (o.toNat + k))) ∧
  (∀ (s : State) (o : BitVec 16) (i : Instr) (n k : Nat),
    (i, n) ∈ [(Instr.rxbufRd8 o, 1), (Instr.rxbufRd16 o, 2), (Instr.rxbufRd32 o, 4)] →
    o.toNat % n = 0 → o.toNat + n ≤ s.params.rxbufBytes → k < n →
    (∀ j < k, (Memory.read s.rxbuf (o.toNat + j)).isSome = true) → Memory.read s.rxbuf (o.toNat + k) = none →
    exec i s = .fault (.unwrittenBufferRead .rxbuf (o.toNat + k))) ∧
  (∀ (s : State) (k : Nat), MaySend s → k < (fragmentAt s).2 →
    (∀ j < k, (Memory.read s.txbuf ((fragmentAt s).1 + j)).isSome = true) →
    Memory.read s.txbuf ((fragmentAt s).1 + k) = none →
    exec .txSend s = .fault (.unwrittenBufferRead .txbuf ((fragmentAt s).1 + k)))

/-! ## Sender -/

/-- R171, R172: TX_SEND where it is enabled and its fragment is written. -/
def Obligations.TxSendEmitsTheNextPacket : Prop :=
  ∀ (s : State) (payload : List Byte), MaySend s → payload.length = (fragmentAt s).2 →
    (∀ k < payload.length, Memory.read s.txbuf ((fragmentAt s).1 + k) = payload[k]?) →
    exec .txSend s = .next
      { s with linkOut := s.linkOut ++ [dataFrame s payload], txFrames := s.txFrames + 1, txNext := s.txNext + 1,
               tmrAct := if s.txBase = s.txNext then true else s.tmrAct,
               tmrCnt := if s.txBase = s.txNext then s.rto else s.tmrCnt, lastOp := 0x10 }

/-- R174: an ack equal to `base` advances the window by one; the late ack of 90_conflicts.md C3 raises TX_NEXT. -/
def Obligations.AckAcceptAdvancesTheWindowByOne : Prop :=
  ∀ (s : State) (f : Frame) (rest : List Frame) (next : BitVec 16),
    s.phase = .sending → s.linkIn = f :: rest → IsPacket f → f.getD 3 0 = s.txBase.setWidth 8 →
    next = (if s.txNext.toNat < (s.txBase + 1).toNat then s.txBase + 1 else s.txNext) →
    exec .ackAccept s = .next
      { s with linkIn := rest, rxFrames := s.rxFrames + 1,
               rflag := s.rflag &&& ~~~(1#8 <<< (s.txBase.toNat % 8)), txBase := s.txBase + 1, txNext := next,
               tmrAct := if s.txBase + 1 = next then false else true,
               tmrCnt := if s.txBase + 1 = next then 0 else s.rto,
               phase := if s.txBase + 1 = s.txTotal then .sendDone else .sending,
               irqStatus := if s.txBase + 1 = s.txTotal then s.irqStatus ||| 0x01 else s.irqStatus,
               events := if s.txBase + 1 = s.txTotal then s.events ++ [⟨.txDone, none⟩] else s.events,
               lastOp := 0x11 }

/-- R175: any other ack only counts. -/
def Obligations.OtherAcksAreIgnored : Prop :=
  ∀ (s : State) (f : Frame) (rest : List Frame),
    s.phase = .sending → s.linkIn = f :: rest → IsPacket f → f.getD 3 0 ≠ s.txBase.setWidth 8 →
    exec .ackIgnore s = .next { s with linkIn := rest, rxFrames := s.rxFrames + 1, lastOp := 0x12 }

/-- R176, R178: a tick of a running timer above 1 counts down, and TICK_IDLE changes nothing; neither is recorded. -/
def Obligations.TicksCountDownOrChangeNothing : Prop :=
  ∀ s : State,
    (TimerRuns s → 1 < s.tmrCnt.toNat → exec .tickCount s = .next { s with tmrCnt := s.tmrCnt - 1 }) ∧
    exec .tickIdle s = .next s

/-- R177: the timeout marks the whole outstanding window, goes back to TX_BASE and disarms, and raises no event. -/
def Obligations.TimerExpireMarksAndRewindsTheWindow : Prop :=
  ∀ s : State, TimerRuns s → s.tmrCnt.toNat ≤ 1 →
    ∃ flags : BitVec 8,
      exec .timerExpire s = .next
        { s with rflag := flags, txNext := s.txBase, tmrAct := false, tmrCnt := 0, timeouts := s.timeouts + 1,
                 lastOp := 0x14 } ∧
      ∀ j < 8, (flags.getLsbD j = true ↔
        s.rflag.getLsbD j = true ∨ ∃ k, s.txBase.toNat ≤ k ∧ k < s.txNext.toNat ∧ k % 8 = j)

/-- R179: a zero-length frame tells the host and leaves the window, the timer and STATE alone. -/
def Obligations.PeerClosedLeavesTheSenderRunning : Prop :=
  ∀ (s : State) (rest : List Frame), s.phase = .sending → s.linkIn = [] :: rest →
    exec .sndPeerClosed s = .next
      { s with linkIn := rest, rxFrames := s.rxFrames + 1, irqStatus := s.irqStatus ||| 0x40,
               events := s.events ++ [⟨.peerClosed, none⟩], lastOp := 0x16 }

/-! ## Receiver -/

/-- R212, R215: an in-order packet is appended as far as it fits, acknowledged and remembered. The two premises on the
parameters and RX_LEN are part of the invariant. -/
def Obligations.RxAcceptAppendsAndAcknowledges : Prop :=
  ∀ (s : State) (f : Frame) (rest : List Frame) (stored : Nat),
    s.phase = .receiving → s.ready = true → s.linkIn = f :: rest → IsPacket f → f.getD 2 0 = s.rxExpected →
    s.params.Legal → s.rxLen.toNat ≤ s.params.rxbufBytes →
    stored = min (f.length - 7) (s.params.rxbufBytes - s.rxLen.toNat) →
    ∃ m, exec .rxAccept s = .next
        { s with linkIn := rest, rxFrames := s.rxFrames + 1, rxbuf := m,
                 rxLen := BitVec.ofNat 17 (s.rxLen.toNat + stored),
                 irqStatus := if stored < f.length - 7 then s.irqStatus ||| 0x10 else s.irqStatus,
                 events := if stored < f.length - 7 then s.events ++ [⟨.rxOverflow, none⟩] else s.events,
                 linkOut := s.linkOut ++ [ackFrameFor s s.rxExpected], txFrames := s.txFrames + 1,
                 rxExpected := s.rxExpected + 1, la := some (ackFrameFor s s.rxExpected), lastOp := 0x20 } ∧
      ∀ a, Memory.read m a =
        if s.rxLen.toNat ≤ a ∧ a < s.rxLen.toNat + stored then f[7 + (a - s.rxLen.toNat)]?
        else Memory.read s.rxbuf a

/-- R213: any other packet draws the stored last ack, byte for byte, and touches no other receiver state. -/
def Obligations.RxDupackResendsTheLastAckVerbatim : Prop :=
  ∀ (s : State) (f a : Frame) (rest : List Frame),
    s.phase = .receiving → s.ready = true → s.linkIn = f :: rest → IsPacket f → f.getD 2 0 ≠ s.rxExpected →
    s.la = some a →
    exec .rxDupack s = .next
      { s with linkIn := rest, rxFrames := s.rxFrames + 1, linkOut := s.linkOut ++ [a], txFrames := s.txFrames + 1,
               lastOp := 0x21 }

/-- R214: the close marker ends the receiver, whether or not link-out is ready. -/
def Obligations.RxPeerCloseEndsTheReceiver : Prop :=
  ∀ (s : State) (rest : List Frame), s.phase = .receiving → s.linkIn = [] :: rest →
    exec .rxPeerClose s = .next
      { s with linkIn := rest, rxFrames := s.rxFrames + 1, phase := .recvDone, irqStatus := s.irqStatus ||| 0x02,
               events := s.events ++ [⟨.rxDone, none⟩], lastOp := 0x22 }

/-! ## Discarded frames -/

/-- R134, R135, R136: the three discards consume the frame, count it, raise their event and change nothing else. -/
def Obligations.DiscardedFramesOnlyRaiseTheirEvent : Prop :=
  ∀ (s : State) (f : Frame) (rest : List Frame), s.linkIn = f :: rest →
    (s.phase = .sending ∨ s.phase = .receiving → 1 ≤ f.length → f.length ≤ 6 →
      exec .frameShort s = .next
        { s with linkIn := rest, rxFrames := s.rxFrames + 1, irqStatus := s.irqStatus ||| 0x04,
                 events := s.events ++ [⟨.shortFrame, some f.length⟩], lastOp := 0x30 }) ∧
    (s.phase = .sending ∨ s.phase = .receiving → 72 ≤ f.length →
      exec .frameOversize s = .next
        { s with linkIn := rest, rxFrames := s.rxFrames + 1, irqStatus := s.irqStatus ||| 0x08,
                 events := s.events ++ [⟨.oversizeFrame, some f.length⟩], lastOp := 0x31 }) ∧
    (Stopped s →
      exec .frameStray s = .next
        { s with linkIn := rest, rxFrames := s.rxFrames + 1, irqStatus := s.irqStatus ||| 0x80,
                 events := s.events ++ [⟨.strayFrame, some f.length⟩], lastOp := 0x32 })

/-- R136, R178, R301: while no transfer runs, a turn of the engine discards the head frame as stray or does nothing, and
a tick does nothing; no frame is emitted. (The engine's turns are the model's, notes/assumptions/2.md.) -/
def Obligations.WhileStoppedTheEngineOnlyDiscardsFrames : Prop :=
  ∀ s u : State, Stopped s →
    ((s.agenda = [] ∧ u = s) ∨ (∃ rest, s.agenda = .engine :: rest ∧ u = { s with agenda := rest }) →
      (s.linkIn = [] → step s = .next u) ∧
      (∀ f rest, s.linkIn = f :: rest →
        step s = .next
          { u with linkIn := rest, rxFrames := s.rxFrames + 1, irqStatus := s.irqStatus ||| 0x80,
                   events := s.events ++ [⟨.strayFrame, some f.length⟩], lastOp := 0x32 })) ∧
    (∀ rest, s.agenda = .tick :: rest → step s = .next { s with agenda := rest })

/-- R77, R99, R277 and the model's choice of notes/assumptions/3.md: an operation that is not enabled, or that link-out
holds, is not taken. The last two clauses, on TX_START and RX_START by operation code where they are not legal, are the
model's choice of notes/assumptions/4.md. -/
def Obligations.OperationsNotEnabledAreNotTaken : Prop :=
  ∀ s : State,
    (¬ MaySend s → exec .txSend s = .next s) ∧
    (¬ (TimerRuns s ∧ 1 < s.tmrCnt.toNat) → exec .tickCount s = .next s) ∧
    (¬ (TimerRuns s ∧ s.tmrCnt.toNat ≤ 1) → exec .timerExpire s = .next s) ∧
    (∀ i : Instr,
      i ∈ [Instr.ackAccept, .ackIgnore, .sndPeerClosed, .rxAccept, .rxDupack, .rxPeerClose, .frameShort,
        .frameOversize, .frameStray] →
      (∀ f rest, s.linkIn = f :: rest → classifyFrame s f = i → needsReady i = true ∧ s.ready = false) →
      exec i s = .next s) ∧
    (¬ (Stopped s ∧ s.txLen.toNat ≤ s.params.txbufBytes) → exec .txStart s = .next s) ∧
    (¬ Stopped s → exec .rxStart s = .next s)

/-! ## Whole-machine rules -/

/-- R30, R36, R38, R39, R77, R162, R180: every step from a state that meets the invariant gives one that meets it. -/
def Obligations.EveryStepKeepsTheInvariant : Prop :=
  ∀ s t : State, s.Inv → step s = .next t → t.Inv

/-- R277, R81, R98: from a state that meets the invariant a step stops only at a byte that holds no value or at an input
that is no word of the table. That such an input is refused is the model's choice of notes/assumptions/17.md. -/
def Obligations.StepsStopOnlyForUnwrittenBytesOrUnlistedInputs : Prop :=
  ∀ s : State, s.Inv →
    (∀ f, step s = .fault f →
      (∃ a, f = .unwrittenBufferRead .txbuf a ∧ Memory.read s.txbuf a = none) ∨
      (∃ a, f = .unwrittenBufferRead .rxbuf a ∧ Memory.read s.rxbuf a = none)) ∧
    (∀ r, step s = .refused r → ∃ e input rest, r = .undecodable e ∧ s.agenda = .input input :: rest ∧
      decode input = .error e)

/-- R8: no step changes the parameters. (That they stand in State is the model's choice, notes/assumptions/10.md.) -/
def Obligations.NoStepChangesTheParameters : Prop :=
  ∀ s t : State, step s = .next t → t.params = s.params

/-- R21: "Only these operations write STATE": TX_START, ACK_ACCEPT, RX_START, RX_PEER_CLOSE, CLOSE (reset is no
instruction). -/
def Obligations.OnlyTheNamedOperationsWriteState : Prop :=
  ∀ (i : Instr) (s t : State), i.wf = true → exec i s = .next t → t.phase ≠ s.phase →
    i ∈ [Instr.txStart, .cmdTxStart, .ackAccept, .rxStart, .cmdRxStart, .rxPeerClose, .close, .cmdClose] ∨
    ∃ w, i = .regWrite 0x004 w ∧ decodeCmd w ∈ [Instr.cmdTxStart, .cmdRxStart, .cmdClose]

/-- R156, R174, R175 (90_conflicts.md C1): TX_BASE moves only by one, and only on an ack equal to it; else it is set to 0
by a start. -/
def Obligations.BaseAdvancesOnlyOnItsOwnAck : Prop :=
  ∀ (i : Instr) (s t : State), exec i s = .next t → t.txBase ≠ s.txBase →
    t.txBase = 0 ∧ t.txNext = 0 ∧ t.lastOp = 0x01 ∨
    i = .ackAccept ∧ t.txBase = s.txBase + 1 ∧
      ∃ f rest, s.linkIn = f :: rest ∧ IsPacket f ∧ f.getD 3 0 = s.txBase.setWidth 8

/-- R212, R213, 95_test_vectors.md E6: RX_EXPECTED, RX_LEN and RXBUF change only on an exact sequence match; a start
clears the two registers and leaves the buffer. -/
def Obligations.ReassemblyChangesOnlyOnAnExactMatch : Prop :=
  ∀ (i : Instr) (s t : State), exec i s = .next t →
    (t.rxExpected ≠ s.rxExpected ∨ t.rxLen ≠ s.rxLen ∨ t.rxbuf ≠ s.rxbuf) →
    (t.rxExpected = 0 ∧ t.rxLen = 0 ∧ t.rxbuf = s.rxbuf ∧ t.lastOp = 0x02) ∨
    (i = .rxAccept ∧ t.rxExpected = s.rxExpected + 1 ∧
      ∃ f rest, s.linkIn = f :: rest ∧ IsPacket f ∧ f.getD 2 0 = s.rxExpected)

/-- R66, R72: TXBUF is written by its three host writes only, and RXBUF by RX_ACCEPT only. -/
def Obligations.BuffersAreWrittenOnlyByTheirWriters : Prop :=
  ∀ (i : Instr) (s t : State), exec i s = .next t →
    (t.txbuf ≠ s.txbuf → ∃ o w, i ∈ [Instr.txbufWr8 o w, .txbufWr16 o w, .txbufWr32 o w]) ∧
    (t.rxbuf ≠ s.rxbuf → i = .rxAccept)

/-- R25, R271: an event bit that is set stays set until the host writes 1 to it. -/
def Obligations.EventBitsStayUntilTheHostClearsThem : Prop :=
  ∀ (i : Instr) (s t : State) (k : Nat), exec i s = .next t → k < 8 → s.irqStatus.getLsbD k = true →
    t.irqStatus.getLsbD k = false → ∃ w, i = .regWrite 0x00C w ∧ w.getLsbD k = true

/-- R271, R274: every operation raises at most one event, and only a raised event sets a bit, its own. -/
def Obligations.EveryOperationRaisesAtMostOneEvent : Prop :=
  ∀ (i : Instr) (s t : State), exec i s = .next t →
    (t.events = s.events ∧ ∀ k, t.irqStatus.getLsbD k = true → s.irqStatus.getLsbD k = true) ∨
    (∃ e, t.events = s.events ++ [e] ∧ t.irqStatus = s.irqStatus ||| (1#8 <<< e.event.code))

/-- R47: the irq level, and that it is 0 after reset. -/
def Obligations.IrqIsTheEnabledEvents : Prop :=
  (∀ s : State, s.irq = true ↔ ∃ k < 8, s.irqStatus.getLsbD k = true ∧ s.irqEnable.getLsbD k = true) ∧
  (∀ s : State, (applyReset s).irq = false) ∧ State.reset.irq = false

/-- R65, R71: a read changes nothing but the response. -/
def Obligations.ReadsHaveNoSideEffect : Prop :=
  ∀ (i : Instr) (s t : State) (o : BitVec 16),
    i ∈ [Instr.regRead o, .txbufRd8 o, .txbufRd16 o, .txbufRd32 o, .rxbufRd8 o, .rxbufRd16 o, .rxbufRd32 o] →
    exec i s = .next t → t = { s with resp := t.resp }

/-- R40, R41, R42: the counters count what the operation emitted, consumed and timed out, or a start clears all three. -/
def Obligations.CountersCountFramesAndTimeouts : Prop :=
  ∀ (i : Instr) (s t : State), exec i s = .next t →
    (t.txFrames = 0 ∧ t.rxFrames = 0 ∧ t.timeouts = 0 ∧ t.linkIn = s.linkIn ∧ t.linkOut = s.linkOut ∧
      (t.lastOp = 0x01 ∨ t.lastOp = 0x02)) ∨
    (∃ sent got : List Frame, t.linkOut = s.linkOut ++ sent ∧ s.linkIn = got ++ t.linkIn ∧
      sent.length ≤ 1 ∧ got.length ≤ 1 ∧
      t.txFrames = s.txFrames + BitVec.ofNat 32 sent.length ∧ t.rxFrames = s.rxFrames + BitVec.ofNat 32 got.length ∧
      t.timeouts = s.timeouts + (if i = .timerExpire ∧ t ≠ s then 1 else 0))

/-- R30, R182: how an operation may change the timer. -/
def Obligations.TimerChangesAsTheSummarySays : Prop :=
  ∀ (i : Instr) (s t : State), exec i s = .next t →
    (t.tmrAct = s.tmrAct ∧ t.tmrCnt = s.tmrCnt) ∨
    (t.tmrAct = false ∧ t.tmrCnt = 0 ∧ t.lastOp ∈ [0x01, 0x03, 0x11, 0x14]) ∨
    (t.tmrAct = true ∧ t.tmrCnt = s.rto ∧
      (i = .ackAccept ∧ t.txBase ≠ t.txNext ∨ i = .txSend ∧ s.txBase = s.txNext)) ∨
    (i = .tickCount ∧ t.tmrAct = true ∧ 1 < s.tmrCnt.toNat ∧ t.tmrCnt.toNat + 1 = s.tmrCnt.toNat)

/-- R39, R211, R212, R213: while RECEIVING, every frame the receiver emits acknowledges the packet before RX_EXPECTED as
it stands after the operation; so once RX_EXPECTED has passed a packet its ack is never sent again (R316). -/
def Obligations.TheReceiverAcknowledgesTheLastInOrderPacket : Prop :=
  ∀ (i : Instr) (s t : State), s.Inv → s.phase = .receiving → exec i s = .next t →
    t.linkOut = s.linkOut ∨ ∃ a, t.linkOut = s.linkOut ++ [a] ∧ a.getD 3 0 = t.rxExpected - 1

/-- R173: of a received packet the sender reads byte 3 only: two packets that agree in it enable the same operation and
leave the same state. -/
def Obligations.TheSenderReadsOnlyTheAckByte : Prop :=
  ∀ (s : State) (f g : Frame) (rest : List Frame),
    s.phase = .sending → IsPacket f → IsPacket g → f.getD 3 0 = g.getD 3 0 →
    classifyFrame s f = classifyFrame s g ∧
    exec (classifyFrame s f) { s with linkIn := f :: rest } = exec (classifyFrame s g) { s with linkIn := g :: rest }

/-- R212, R213, 92_eei_decisions.md D28: of a received packet the receiver reads byte 2 and the payload only: two
packets that agree in them enable the same operation and, where link-out does not hold it, leave the same state. -/
def Obligations.TheReceiverReadsOnlySeqAndPayload : Prop :=
  ∀ (s : State) (f g : Frame) (rest : List Frame),
    s.phase = .receiving → s.ready = true → IsPacket f → IsPacket g → f.getD 2 0 = g.getD 2 0 → f.drop 7 = g.drop 7 →
    classifyFrame s f = classifyFrame s g ∧
    exec (classifyFrame s f) { s with linkIn := f :: rest } = exec (classifyFrame s g) { s with linkIn := g :: rest }

/-- R176: with the count at N >= 1 the N-th tick expires the timer and no earlier one does. -/
def Obligations.TheNthTickExpiresTheTimer : Prop :=
  ∀ (s : State) (n : Nat) (rest : List Turn), TimerRuns s → 1 ≤ n → s.tmrCnt.toNat = n →
    s.agenda = List.replicate n .tick ++ rest →
    (∀ k < n, Sys2Proof.core.run k s = .next
      { s with agenda := List.replicate (n - k) .tick ++ rest, tmrCnt := BitVec.ofNat 32 (n - k) }) ∧
    ∃ t, Sys2Proof.core.run n s = .next t ∧ t.agenda = rest ∧ t.timeouts = s.timeouts + 1 ∧ t.txNext = s.txBase ∧
      t.tmrAct = false ∧ t.lastOp = 0x14

/-- R171, R172, R177, 95_test_vectors.md E7: after a timeout the next TX_SENDs resend every outstanding packet, from
TX_BASE on, in order: each frame whole, its header from HDR_CFG, its sequence number, the retransmit flag, and its
fragment of TXBUF. (The schedule is that of notes/assumptions/1.md.) -/
def Obligations.ATimeoutResendsTheWholeWindow : Prop :=
  ∀ (s : State) (n : Nat) (rest : List Turn), s.Inv → TimerRuns s → s.tmrCnt.toNat ≤ 1 → s.ready = true →
    (∀ a < s.txLen.toNat, (Memory.read s.txbuf a).isSome = true) →
    s.txNext.toNat = s.txBase.toNat + n →
    s.agenda = .tick :: (List.replicate n (.input (.op 0x10)) ++ rest) →
    ∃ (t : State) (frames : List Frame), Sys2Proof.core.run (n + 1) s = .next t ∧ t.agenda = rest ∧
      t.linkOut = s.linkOut ++ frames ∧ frames.length = n ∧ t.txBase = s.txBase ∧ t.txNext = s.txNext ∧
      ∀ k < n, ∃ payload : List Byte,
        payload.length = min 64 (s.txLen.toNat - 64 * (s.txBase.toNat + k)) ∧
        (∀ j < payload.length, Memory.read s.txbuf (64 * (s.txBase.toNat + k) + j) = payload[j]?) ∧
        frames[k]? = some
          ([s.hdrCfg.extractLsb' 0 8, s.hdrCfg.extractLsb' 8 8, BitVec.ofNat 8 (s.txBase.toNat + k), 0x00,
            s.hdrCfg.extractLsb' 16 8, s.hdrCfg.extractLsb' 24 8, 0x01] ++ payload)

/-- R61: the block's offsets are the 2^18 platform addresses from P_BASE on, whatever P_BASE is. -/
def Obligations.TheWindowStandsAtPBase : Prop :=
  (∀ off : BitVec 18, windowOffset (Config.pBase + off.toNat) = some off) ∧
  (∀ addr, addr < Config.pBase ∨ Config.pBase + 2 ^ 18 ≤ addr → windowOffset addr = none)
end

