-- ==== Sys2Proof/Laws/Exec.lean ====
section
/-! SUPPORT. What exec can do, said once: whenever it answers a next state, that state is one of the effects below. An
invariant of every instruction is a case analysis over them, with the forms of the composite updates at the end, and
the first step of a longer run. -/

namespace Sys2Proof.Machine

/-! ## Conditions, in the spec's own terms -/

theorem State.stopped_iff (s : State) :
    s.stopped = true ↔ s.phase = .idle ∨ s.phase = .sendDone ∨ s.phase = .recvDone := by
  cases h : s.phase <;> simp [State.stopped, h]

theorem State.mayStartTx_iff (s : State) :
    s.mayStartTx = true ↔ s.stopped = true ∧ s.txLen.toNat ≤ s.params.txbufBytes := by
  simp [State.mayStartTx]

theorem State.txSendEnabled_iff (s : State) :
    s.txSendEnabled = true ↔
      s.phase = .sending ∧ (s.txNext.setWidth 8 - s.txBase.setWidth 8 : BitVec 8).toNat < 8 ∧
        s.txNext.toNat < s.txTotal.toNat ∧ s.ready = true := by
  simp [State.txSendEnabled, winSpace, seqDist, seqOf, Config.windowSize, BitVec.ult, backlog, and_assoc]

theorem regAt_eq_irqStatus {off : BitVec 16} (h : regAt off = some .irqStatus) : off = 0x00C := by
  unfold regAt at h
  split at h <;> first | (injection h with h; contradiction) | cases h
  next e => exact BitVec.eq_of_toNat_eq e

theorem regAt_eq_cmd {off : BitVec 16} (h : regAt off = some .cmd) : off = 0x004 := by
  unfold regAt at h
  split at h <;> first | (injection h with h; contradiction) | cases h
  next e => exact BitVec.eq_of_toNat_eq e

/-! ## Effects -/

/-- `Effect i s t`: running `i` in `s` may give `t`, by the named update under its conditions. -/
inductive Effect : Instr → State → State → Prop where
  /-- The operation is not taken. -/
  | same (i s) : Effect i s s
  /-- Only the response is written. -/
  | answer (i s r) : Effect i s (respond r s)
  | nop (i s) : Effect i s (commandNop (respond .writeDone s))
  | illegal (i s info) : Effect i s (commandIllegal info (respond .writeDone s))
  | txStart (i s) (hi : i = .txStart ∨ i = .cmdTxStart ∨ i = .regWrite 4 1 ∨ i = .cmdIllegal 1)
      (hm : s.mayStartTx = true) : Effect i s (txStart (respond .writeDone s))
  | rxStart (i s) (hi : i = .rxStart ∨ i = .cmdRxStart ∨ i = .regWrite 4 2 ∨ i = .cmdIllegal 2)
      (hm : s.mayStartRx = true) :
      Effect i s
        (recordOp 0x02 (clearCounters
          { s with rxExpected := 0, rxLen := 0, la := some (ackFrame s 255), phase := .receiving, resp := .writeDone }))
  | close (i s) (hi : i = .close ∨ i = .cmdClose ∨ i = .regWrite 4 3 ∨ i = .cmdIllegal 3) :
      Effect i s (commandClose (respond .writeDone s))
  | txSend (s) (payload : List Byte) (he : s.txSendEnabled = true)
      (hr : readBytes .txbuf s.txbuf (fragOff s.txNext).toNat (fragLen s.txLen s.txNext) = .ok payload) :
      Effect .txSend s (sendFrame (headerOf (dataPacket s s.txNext payload) ++ payload) s)
  | ackAccept (s f rest) (hl : s.linkIn = f :: rest) (hc : classifyFrame s f = .ackAccept) :
      Effect .ackAccept s (ackAccept (consume s))
  | ackIgnore (s f rest) (hl : s.linkIn = f :: rest) (hc : classifyFrame s f = .ackIgnore) :
      Effect .ackIgnore s (recordOp 0x12 (consume s))
  | sndPeerClosed (s f rest) (hl : s.linkIn = f :: rest) (hc : classifyFrame s f = .sndPeerClosed) :
      Effect .sndPeerClosed s (recordOp 0x16 (raise .peerClosed none (consume s)))
  | tickCount (s) (hc : classifyTick s = .tickCount) : Effect .tickCount s { s with tmrCnt := s.tmrCnt - 1 }
  | timerExpire (s) (hc : classifyTick s = .timerExpire) : Effect .timerExpire s (timerExpire s)
  | rxAccept (s f rest) (hl : s.linkIn = f :: rest) (hc : classifyFrame s f = .rxAccept) :
      Effect .rxAccept s
        (recordOp 0x20
          { emit (ackFrame s s.rxExpected) (append (framePayload f) (consume s)) with
            rxExpected := seqInc s.rxExpected, la := some (ackFrame s s.rxExpected) })
  | rxDupack (s f rest a) (hl : s.linkIn = f :: rest) (hc : classifyFrame s f = .rxDupack) (ha : s.la = some a) :
      Effect .rxDupack s (recordOp 0x21 (emit a (consume s)))
  | rxPeerClose (s f rest) (hl : s.linkIn = f :: rest) (hc : classifyFrame s f = .rxPeerClose) :
      Effect .rxPeerClose s (recordOp 0x22 (raise .rxDone none { consume s with phase := .recvDone }))
  | discard (i s f rest e c) (hl : s.linkIn = f :: rest) (hc : classifyFrame s f = i)
      (hi : i = .frameShort ∨ i = .frameOversize ∨ i = .frameStray) :
      Effect i s (recordOp c (raise e (some f.length) (consume s)))
  | bufferWrite (i s o n w) (hi : (i, n) ∈ [(Instr.txbufWr8 o w, 1), (Instr.txbufWr16 o w, 2), (Instr.txbufWr32 o w, 4)])
      (hb : inBuffer o n s.params.txbufBytes = true) :
      Effect i s (respond .writeDone { s with txbuf := writeBytes s.txbuf o.toNat (leBytes w n) })
  | clear (s w) : Effect (.regWrite 0x00C w) s (clearEvents (w.setWidth 8) (respond .writeDone s))
  | configure (s off w ackZlp irqEnable hdrCfg ackFill rto txLen) (ht : s.phase = .sending → txLen = s.txLen) :
      Effect (.regWrite off w) s
        { s with
          ackZlp := ackZlp, irqEnable := irqEnable, hdrCfg := hdrCfg, ackFill := ackFill, rto := rto, txLen := txLen,
          resp := .writeDone }

theorem runCommand_effect {i s w t} (h : runCommand w (respond .writeDone s) = .next t)
   (h1 : w = 1 → (i = .txStart ∨ i = .cmdTxStart ∨ i = .regWrite 4 1 ∨ i = .cmdIllegal 1))
   (h2 : w = 2 → (i = .rxStart ∨ i = .cmdRxStart ∨ i = .regWrite 4 2 ∨ i = .cmdIllegal 2))
   (h3 : w = 3 → (i = .close ∨ i = .cmdClose ∨ i = .regWrite 4 3 ∨ i = .cmdIllegal 3)) : Effect i s t := by
  unfold runCommand at h
  split at h
  · injection h with h; subst h; exact .nop _ _
  · next hw =>
    have : w = 1 := BitVec.eq_of_toNat_eq hw
    split at h
    · next hm => injection h with h; subst h; exact .txStart _ _ (h1 this) hm
    · injection h with h; subst h; exact .illegal _ _ _
  · next hw =>
    have : w = 2 := BitVec.eq_of_toNat_eq hw
    split at h
    · next hm =>
      rw [rxStart, withEncoded_ackPacket] at h
      injection h with h; subst h; exact .rxStart _ _ (h2 this) hm
    · injection h with h; subst h; exact .illegal _ _ _
  · next hw =>
    have : w = 3 := BitVec.eq_of_toNat_eq hw
    injection h with h; subst h; exact .close _ _ (h3 this)
  · injection h with h; subst h; exact .illegal _ _ _

theorem onHeadFrame_effect {i effect s t} (h : onHeadFrame i effect s = .next t)
    (hh : ∀ f rest, s.linkIn = f :: rest → classifyFrame s f = i → (needsReady i = true → s.ready = true) →
      effect f (consume s) = .next t → Effect i s t) : Effect i s t := by
  rcases onHeadFrame_cases i effect s with ⟨f, rest, hl, hc, hr, heq⟩ | ⟨_, heq⟩
  · rw [heq] at h; exact hh f rest hl hc hr h
  · rw [heq] at h; injection h with h; subst h; exact .same _ _

theorem bufferRead_effect {i sp m l o n s t} (h : bufferRead sp m l o n s = .next t) : Effect i s t := by
  rcases bufferRead_cases sp m l o n s with ⟨r, h'⟩ | ⟨a, h'⟩ <;> rw [h'] at h
  · injection h with h; subst h; exact .answer _ _ _
  · cases h

theorem txbufWrite_effect {i o n w s t} (h : txbufWrite n o w s = .next t)
    (hi : (i, n) ∈ [(Instr.txbufWr8 o w, 1), (Instr.txbufWr16 o w, 2), (Instr.txbufWr32 o w, 4)]) : Effect i s t := by
  unfold txbufWrite at h
  split at h
  · next hb => injection h with h; subst h; exact .bufferWrite _ _ _ _ _ hi hb
  · rw [busError] at h; injection h with h; subst h; exact .answer _ _ _

/-- Whenever exec answers a next state, that state is one of the effects. -/
theorem exec_effect {i s t} (h : exec i s = .next t) : Effect i s t := by
  cases i <;> simp only [exec] at h
  case cmdNop => exact runCommand_effect (w := 0) h (by decide) (by decide) (by decide)
  case cmdTxStart => exact runCommand_effect (w := 1) h (by simp) (by decide) (by decide)
  case cmdRxStart => exact runCommand_effect (w := 2) h (by decide) (by simp) (by decide)
  case cmdClose => exact runCommand_effect (w := 3) h (by decide) (by decide) (by simp)
  case cmdIllegal => exact runCommand_effect h (by rintro rfl; simp) (by rintro rfl; simp) (by rintro rfl; simp)
  case nop => injection h with h; subst h; exact .nop _ _
  case txStart =>
    unfold execTxStart at h
    split at h
    · next hm => injection h with h; subst h; exact .txStart _ _ (by simp) hm
    · injection h with h; subst h; exact .same _ _
  case rxStart =>
    unfold execRxStart at h
    split at h
    · next hm => rw [rxStart, withEncoded_ackPacket] at h; injection h with h; subst h; exact .rxStart _ _ (by simp) hm
    · injection h with h; subst h; exact .same _ _
  case close => injection h with h; subst h; exact .close _ _ (by simp)
  case illegalCmd => injection h with h; subst h; exact .illegal _ _ _
  case txSend =>
    unfold execTxSend at h
    split at h
    · next hm =>
      unfold txSend at h
      split at h
      · cases h
      · next bs hbs =>
        have hl : bs.length ≤ 64 := by
          rw [((readBytes_ok_iff _ _ _ _ _).1 hbs).1, fragLen]; exact Nat.min_le_left _ _
        rw [withEncoded_ok _ (by exact hl)] at h
        injection h with h; subst h; exact .txSend _ _ hm hbs
    · injection h with h; subst h; exact .same _ _
  case ackAccept =>
    refine onHeadFrame_effect h fun f rest hl hc hr he => ?_
    injection he with he; subst he; exact .ackAccept _ _ _ hl hc
  case ackIgnore =>
    refine onHeadFrame_effect h fun f rest hl hc hr he => ?_
    injection he with he; subst he; exact .ackIgnore _ _ _ hl hc
  case sndPeerClosed =>
    refine onHeadFrame_effect h fun f rest hl hc hr he => ?_
    injection he with he; subst he; exact .sndPeerClosed _ _ _ hl hc
  case frameShort =>
    refine onHeadFrame_effect h fun f rest hl hc hr he => ?_
    injection he with he; subst he; exact .discard _ _ _ _ _ _ hl hc (by simp)
  case frameOversize =>
    refine onHeadFrame_effect h fun f rest hl hc hr he => ?_
    injection he with he; subst he; exact .discard _ _ _ _ _ _ hl hc (by simp)
  case frameStray =>
    refine onHeadFrame_effect h fun f rest hl hc hr he => ?_
    injection he with he; subst he; exact .discard _ _ _ _ _ _ hl hc (by simp)
  case rxAccept =>
    refine onHeadFrame_effect h fun f rest hl hc hr he => ?_
    rw [rxAccept, withEncoded_ackPacket] at he
    injection he with he; subst he; exact .rxAccept _ _ _ hl hc
  case rxDupack =>
    refine onHeadFrame_effect h fun f rest hl hc hr he => ?_
    unfold rxDupack at he
    split at he
    · next a ha => injection he with he; subst he; exact .rxDupack _ _ _ _ hl hc ha
    · cases he
  case rxPeerClose =>
    refine onHeadFrame_effect h fun f rest hl hc hr he => ?_
    injection he with he; subst he; exact .rxPeerClose _ _ _ hl hc
  case tickCount =>
    unfold execTickCount at h
    split at h
    · next hc => injection h with h; subst h; exact .tickCount _ hc
    · injection h with h; subst h; exact .same _ _
  case timerExpire =>
    unfold execTimerExpire at h
    split at h
    · next hc => injection h with h; subst h; exact .timerExpire _ hc
    · injection h with h; subst h; exact .same _ _
  case tickIdle => injection h with h; subst h; exact .same _ _
  case regRead =>
    unfold execRegRead at h
    split at h <;> (injection h with h; subst h; exact .answer _ _ _)
  case regWrite off w =>
    unfold execRegWrite at h
    split at h
    · split at h
      · next r hr =>
        cases r <;> simp only [writeReg] at h
        case cmd =>
          have := regAt_eq_cmd hr; subst this
          exact runCommand_effect h (by rintro rfl; simp) (by rintro rfl; simp) (by rintro rfl; simp)
        case irqStatus =>
          have := regAt_eq_irqStatus hr; subst this
          injection h with h; subst h; exact .clear _ _
        case ctrl =>
          injection h with h; subst h
          exact .configure s off w _ s.irqEnable s.hdrCfg s.ackFill s.rto s.txLen fun _ => rfl
        case irqEnable =>
          injection h with h; subst h
          exact .configure s off w s.ackZlp _ s.hdrCfg s.ackFill s.rto s.txLen fun _ => rfl
        case hdrCfg =>
          injection h with h; subst h
          exact .configure s off w s.ackZlp s.irqEnable _ s.ackFill s.rto s.txLen fun _ => rfl
        case ackFill =>
          injection h with h; subst h
          exact .configure s off w s.ackZlp s.irqEnable s.hdrCfg _ s.rto s.txLen fun _ => rfl
        case rto =>
          injection h with h; subst h
          exact .configure s off w s.ackZlp s.irqEnable s.hdrCfg s.ackFill _ s.txLen fun _ => rfl
        case txLen =>
          injection h with h; subst h
          split
          · exact .answer _ _ _
          · next hp =>
            exact .configure s off w s.ackZlp s.irqEnable s.hdrCfg s.ackFill s.rto _ fun h => absurd h hp
        all_goals (injection h with h; subst h; exact .answer _ _ _)
      · injection h with h; subst h; exact .answer _ _ _
    · rw [busError] at h; injection h with h; subst h; exact .answer _ _ _
  case txbufRd8 => exact bufferRead_effect h
  case txbufRd16 => exact bufferRead_effect h
  case txbufRd32 => exact bufferRead_effect h
  case rxbufRd8 => exact bufferRead_effect h
  case rxbufRd16 => exact bufferRead_effect h
  case rxbufRd32 => exact bufferRead_effect h
  case txbufWr8 => exact txbufWrite_effect h (by simp)
  case txbufWr16 => exact txbufWrite_effect h (by simp)
  case txbufWr32 => exact txbufWrite_effect h (by simp)
  case busError => injection h with h; subst h; exact .answer _ _ _

/-! ## The composite updates, as one record update each -/

theorem txStart_form (s : State) :
    ∃ phase irq events,
      txStart s =
        { s with txTotal := totalPkts s.txLen, txBase := 0, txNext := 0, rflag := 0, tmrAct := false, tmrCnt := 0,
                 txFrames := 0, rxFrames := 0, timeouts := 0, lastOp := 0x01, phase := phase, irqStatus := irq,
                 events := events } ∧
      ((irq = s.irqStatus ∧ events = s.events) ∨
        (irq = s.irqStatus ||| 1 ∧ events = s.events ++ [⟨.txDone, none⟩])) := by
  unfold txStart enterSending
  split
  · exact ⟨_, _, _, rfl, .inr ⟨rfl, rfl⟩⟩
  · exact ⟨_, _, _, rfl, .inl ⟨rfl, rfl⟩⟩

theorem ackAccept_form (s : State) :
    ∃ phase irq events next flags act cnt,
      ackAccept s =
        { s with rflag := flags, txBase := s.txBase + 1, txNext := next, tmrAct := act, tmrCnt := cnt, lastOp := 0x11,
                 phase := phase, irqStatus := irq, events := events } ∧
      ((irq = s.irqStatus ∧ events = s.events) ∨
        (irq = s.irqStatus ||| 1 ∧ events = s.events ++ [⟨.txDone, none⟩])) ∧
      ((act = false ∧ cnt = 0) ∨ (act = true ∧ cnt = s.rto ∧ s.txBase + 1 ≠ next)) := by
  unfold ackAccept finishSending retimeWindow
  have f2 : raiseNext (advanceBase s) = { advanceBase s with txNext := (raiseNext (advanceBase s)).txNext } := by
    unfold raiseNext; split <;> rfl
  rw [f2]
  generalize (raiseNext (advanceBase s)).txNext = x
  split
  · split
    · exact ⟨_, _, _, _, _, _, _, rfl, .inr ⟨rfl, rfl⟩, .inl ⟨rfl, rfl⟩⟩
    · exact ⟨_, _, _, _, _, _, _, rfl, .inl ⟨rfl, rfl⟩, .inl ⟨rfl, rfl⟩⟩
  · next hne =>
    split
    · exact ⟨_, _, _, _, _, _, _, rfl, .inr ⟨rfl, rfl⟩, .inr ⟨rfl, rfl, hne⟩⟩
    · exact ⟨_, _, _, _, _, _, _, rfl, .inl ⟨rfl, rfl⟩, .inr ⟨rfl, rfl, hne⟩⟩

theorem append_form (payload : List Byte) (s : State) :
    ∃ m len irq events,
      append payload s = { s with rxbuf := m, rxLen := len, irqStatus := irq, events := events } ∧
      ((irq = s.irqStatus ∧ events = s.events) ∨
        (irq = s.irqStatus ||| 16 ∧ events = s.events ++ [⟨.rxOverflow, none⟩])) := by
  unfold append
  dsimp only
  split
  · exact ⟨_, _, _, _, rfl, .inr ⟨rfl, rfl⟩⟩
  · exact ⟨_, _, _, _, rfl, .inl ⟨rfl, rfl⟩⟩

theorem sendFrame_form (f : Frame) (s : State) :
    ∃ act cnt,
      sendFrame f s =
        { s with linkOut := s.linkOut ++ [f], txFrames := s.txFrames + 1, txNext := s.txNext + 1, tmrAct := act,
                 tmrCnt := cnt, lastOp := 0x10 } ∧
      ((s.txBase = s.txNext ∧ act = true ∧ cnt = s.rto) ∨ (act = s.tmrAct ∧ cnt = s.tmrCnt)) := by
  unfold sendFrame
  dsimp only
  split
  · next h => exact ⟨_, _, rfl, .inl ⟨h, rfl, rfl⟩⟩
  · exact ⟨_, _, rfl, .inr ⟨rfl, rfl⟩⟩

/-! ## Runs -/

theorem run_succ_of_next (M : Host.Core) (k : Nat) {s t : M.State} (h : M.step s = .next t) :
    M.run (k + 1) s = M.run k t := by
  simp only [Host.Core.run, h]

/-- A run of the machine takes its first step and goes on from there. -/
theorem core_run_succ {k : Nat} {s t : State} (h : step s = .next t) :
    Sys2Proof.core.run (k + 1) s = Sys2Proof.core.run k t :=
  run_succ_of_next Sys2Proof.core k h

end Sys2Proof.Machine
end

