-- ==== Sys2Proof/Tests/Slice0.lean ====
section
/-! SUPPORT. Tests. Expected results are worked out by hand from spec/ (the rules' examples and
spec/95_test_vectors.md, named in each comment), never from the model. The last part gives every statement with
hypotheses a state and operands that meet them together. -/

namespace Sys2Proof.Tests

open Sys2Proof Sys2Proof.Machine Sys2Proof.Claims

/-! ## Helpers -/

/-- The outcome is a next state of which `p` holds. -/
def leads (r : Result) (p : State → Bool) : Bool :=
  match r with
  | .next t => p t
  | .fault _ => false
  | .refused _ => false

/-- The outcome is this fault. -/
def faults (r : Result) (f : Fault) : Bool :=
  match r with
  | .next _ => false
  | .fault g => g == f
  | .refused _ => false

/-- A sender in the middle of a transfer, as spec/95_test_vectors.md 2.3 sets it up. -/
def sender (base next total : BitVec 16) (cnt : Word) : State :=
  { State.reset with
    phase := .sending, hdrCfg := 0x08070201, txBase := base, txNext := next, txTotal := total,
    txLen := BitVec.ofNat 17 (64 * total.toNat), tmrAct := base != next, tmrCnt := cnt }

/-- A receiver as RX_START leaves it under HDR_CFG = 0x08070102 and CTRL.ACK_ZLP = 1, at another RX_EXPECTED. -/
def receiver (expected : Byte) : State :=
  { State.reset with
    phase := .receiving, hdrCfg := 0x08070102, ackZlp := true, rxExpected := expected,
    la := some [0x02, 0x01, 0x00, expected - 1, 0x07, 0x08, 0x00] }

/-- The 7-byte ack of `n`. -/
def ack (n : Byte) : Frame := [0x02, 0x01, 0x00, n, 0x07, 0x08, 0x00]

/-- A data frame of sequence number `n` and flag `r`. -/
def data (n r : Byte) (payload : List Byte) : Frame := [0x01, 0x02, n, 0x00, 0x07, 0x08, r] ++ payload

/-- A frame put on link-in. -/
def arriving (f : Frame) (s : State) : State := { s with linkIn := [f] }

/-- The frame is decoded to this packet. -/
def decodesTo (f : Frame) (p : Packet) : Bool := decodeFrame f == .pkt p

/-! ## WellFormed: each check refuses an ill-formed term -/

theorem test_wf_refuses_cmdIllegal_of_a_command : Instr.wf (.cmdIllegal 3) = false := by decide
theorem test_wf_refuses_misaligned_regRead : Instr.wf (.regRead 2) = false := by decide
theorem test_wf_refuses_misaligned_regWrite : Instr.wf (.regWrite 1 0) = false := by decide
theorem test_wf_refuses_misaligned_halfwords :
    Instr.wf (.txbufRd16 1) = false ∧ Instr.wf (.txbufWr16 3 0) = false ∧ Instr.wf (.rxbufRd16 0xFFFF) = false := by
  decide
theorem test_wf_refuses_misaligned_words :
    Instr.wf (.txbufRd32 2) = false ∧ Instr.wf (.txbufWr32 1 0) = false ∧ Instr.wf (.rxbufRd32 0xFFFE) = false := by
  decide
theorem test_wf_refuses_busError_of_a_legal_access :
    Instr.wf (.busError false 2 0x00008) = false ∧ Instr.wf (.busError true 0 0x10003) = false ∧
      Instr.wf (.busError false 1 0x2FFFE) = false := by decide
theorem test_wf_takes_busError_of_illegal_accesses :
    Instr.wf (.busError true 0 0x00004) = true ∧ Instr.wf (.busError true 2 0x20000) = true ∧
      Instr.wf (.busError false 2 0x30000) = true ∧ Instr.wf (.busError false 3 0x10000) = true := by decide

/-! ## Decoding: every constructor from a word of the spec's tables -/

/-- R95, R96: 32-bit command words. -/
theorem test_decode_commands :
    decodeTableWord 32 0x00000000 = some .cmdNop ∧ decodeTableWord 32 0x00000001 = some .cmdTxStart ∧
      decodeTableWord 32 0x00000002 = some .cmdRxStart ∧ decodeTableWord 32 0x00000003 = some .cmdClose ∧
      decodeTableWord 32 0x00000004 = some (.cmdIllegal 0x00000004) ∧
      decodeTableWord 32 0x00000101 = some (.cmdIllegal 0x00000101) := by decide

/-- R98: operation codes. -/
theorem test_decode_operations_low :
    decodeTableWord 8 0x00 = some .nop ∧ decodeTableWord 8 0x01 = some .txStart ∧
      decodeTableWord 8 0x02 = some .rxStart ∧ decodeTableWord 8 0x03 = some .close ∧
      decodeTableWord 8 0x0F = some .illegalCmd ∧ decodeTableWord 8 0x10 = some .txSend ∧
      decodeTableWord 8 0x11 = some .ackAccept ∧ decodeTableWord 8 0x12 = some .ackIgnore ∧
      decodeTableWord 8 0x13 = some .tickCount := by decide

/-- R98: operation codes. -/
theorem test_decode_operations_high :
    decodeTableWord 8 0x14 = some .timerExpire ∧ decodeTableWord 8 0x15 = some .tickIdle ∧
      decodeTableWord 8 0x16 = some .sndPeerClosed ∧ decodeTableWord 8 0x20 = some .rxAccept ∧
      decodeTableWord 8 0x21 = some .rxDupack ∧ decodeTableWord 8 0x22 = some .rxPeerClose ∧
      decodeTableWord 8 0x30 = some .frameShort ∧ decodeTableWord 8 0x31 = some .frameOversize ∧
      decodeTableWord 8 0x32 = some .frameStray := by decide

/-- R98: a code that is not listed is no operation. -/
theorem test_decode_refuses_an_unlisted_code : decode (.op 0x17) = .error (.unlistedOpCode 0x17) := by decide

/-- R97, bit by bit: WE 0, SZ 10, OFF 00 0x0008; and WE 1, SZ 10, OFF 00 0x001C with write data 20. -/
theorem test_decode_register_accesses :
    decodeTableWord 24 0b0_10_00_0000000000001000 = some (.regRead 0x0008) ∧
      decodeTableWord 56 (0b1_10_00_0000000000011100 + 20 * 2 ^ 24) = some (.regWrite 0x001C 20) := by decide

/-- R97, bit by bit: reads of TXBUF at 0x10001, 0x10002 and 0x10004. -/
theorem test_decode_txbuf_reads :
    decodeTableWord 24 0b0_00_01_0000000000000001 = some (.txbufRd8 0x0001) ∧
      decodeTableWord 24 0b0_01_01_0000000000000010 = some (.txbufRd16 0x0002) ∧
      decodeTableWord 24 0b0_10_01_0000000000000100 = some (.txbufRd32 0x0004) := by decide

/-- R97, bit by bit: writes of TXBUF at 0x10001, 0x10002 and 0x10004. -/
theorem test_decode_txbuf_writes :
    decodeTableWord 24 0b1_00_01_0000000000000001 = some (.txbufWr8 0x0001 0) ∧
      decodeTableWord 24 0b1_01_01_0000000000000010 = some (.txbufWr16 0x0002 0) ∧
      decodeTableWord 24 0b1_10_01_0000000000000100 = some (.txbufWr32 0x0004 0) := by decide

/-- R97, bit by bit: reads of RXBUF at 0x2000A, 0x20008 and 0x20004. -/
theorem test_decode_rxbuf_reads :
    decodeTableWord 24 0b0_00_10_0000000000001010 = some (.rxbufRd8 0x000A) ∧
      decodeTableWord 24 0b0_01_10_0000000000001000 = some (.rxbufRd16 0x0008) ∧
      decodeTableWord 24 0b0_10_10_0000000000000100 = some (.rxbufRd32 0x0004) := by decide

/-- 95_test_vectors.md H7, H8, H9, H10: W8 0x004, R32 0x10002, W32 0x20000 and R32 0x30000 are bus errors. -/
theorem test_decode_bus_errors :
    decode (.hreq 0b1_00_00_0000000000000100 1) = .ok (.busError true 0 0x00004) ∧
      decode (.hreq 0b0_10_01_0000000000000010 0) = .ok (.busError false 2 0x10002) ∧
      decode (.hreq 0b1_10_10_0000000000000000 1) = .ok (.busError true 2 0x20000) ∧
      decode (.hreq 0b0_10_11_0000000000000000 0) = .ok (.busError false 2 0x30000) := by decide

/-- The first step after reset runs the word placed (44_host.md R241's example: STATUS reads 0x0000FF00). -/
theorem test_fetch_word_runs_first :
    leads (step (State.reset.withFetchWord 24 0x080008)) (fun t => t.resp == .readDone 0x0000FF00) = true := by decide

/-! ## Codec and sequence arithmetic -/

/-- 95_test_vectors.md E4: every field masked. -/
theorem test_encode_masks_every_field :
    encodePacket { sourcePort := 0x1AB, destPort := 0x2CD, seq := 0x12C, ack := 0x1FF, headerLength := 0x107,
                   windowSize := 0x208, retransmitFlag := 3, payload := [0xAA, 0xBB] } =
      .ok [0xAB, 0xCD, 0x2C, 0xFF, 0x07, 0x08, 0x01, 0xAA, 0xBB] := by decide

/-- 95_test_vectors.md C9: byte 6 is raw. -/
theorem test_decode_takes_the_flag_raw :
    decodesTo [0x01, 0x02, 0x05, 0x00, 0x07, 0x08, 0x05, 0xAA]
      { sourcePort := 1, destPort := 2, seq := 5, ack := 0, headerLength := 7, windowSize := 8, retransmitFlag := 5,
        payload := [0xAA] } = true := by decide

/-- 95_test_vectors.md C5. -/
theorem test_encode_refuses_65_bytes :
    encodePacket { sourcePort := 1, destPort := 2, seq := 0, ack := 0, headerLength := 7, windowSize := 8,
                   retransmitFlag := 0, payload := List.replicate 65 0 } = .error .encodeOversizePayload := by decide

/-- 95_test_vectors.md C11: lengths 0, 1, 6, 7, 71, 72. -/
theorem test_frame_classes :
    (([0, 1, 6, 7, 71, 72].map fun n => classOf (List.replicate n (0 : Byte))) ==
      [.closeMarker, .short, .short, .packet, .packet, .oversize]) = true := by decide

/-- 95_test_vectors.md Q4, Q5, Q7, Q8: WinSpace, Backlog and AckMatch at their edges. -/
theorem test_window_comparator :
    winSpace 0 7 = true ∧ winSpace 0 8 = false ∧ winSpace 255 262 = true ∧ winSpace 255 263 = false ∧
      backlog 256 300 = true ∧ ackMatch 0x00 256 = true ∧ ackMatch 0xFF 256 = false := by decide

/-- 95_test_vectors.md Q10 to Q13. -/
theorem test_fragments :
    [0, 1, 64, 65, 200, 65536].map totalPkts = [0, 1, 1, 2, 4, 1024] ∧
      [0, 1, 2, 3].map (fragLen 200) = [64, 64, 64, 8] ∧ fragOff 1023 = 65472 := by decide

/-! ## Commands and registers -/

/-- 95_test_vectors.md H2: STATUS reads 0x00000000 after NOP. -/
theorem test_nop_status :
    leads (exec .cmdNop State.reset) (fun t => regValueAt t 0x008 == 0x00000000) = true := by decide

/-- 95_test_vectors.md S1: the empty stream. -/
theorem test_txStart_of_the_empty_stream :
    leads (exec .cmdTxStart State.reset)
      (fun t => regValueAt t 0x008 == 0x00000102 && t.irqStatus == 0x01 && t.linkOut == []) = true := by decide

/-- 95_test_vectors.md S4: TX_LEN = 65537 is too long. -/
theorem test_txStart_refuses_a_stream_longer_than_txbuf :
    leads (exec .cmdTxStart { State.reset with txLen := 65537 })
      (fun t => t.irqStatus == 0x20 && t.lastOp == 0x0F && t.phase == .idle) = true := by decide

/-- 95_test_vectors.md V1, with 64 filler bytes. -/
theorem test_rxStart_builds_the_initial_ack :
    leads (exec .rxStart { State.reset with hdrCfg := 0x08070102 })
      (fun t => t.la == some ([0x02, 0x01, 0x00, 0xFF, 0x07, 0x08, 0x00] ++ List.replicate 64 0x00) &&
        regValueAt t 0x040 == 0xFF && regValueAt t 0x008 == 0x00000203) = true := by decide

/-- 95_test_vectors.md H15. -/
theorem test_close_keeps_the_window :
    leads (exec .cmdClose (sender 1 4 4 500))
      (fun t => regValueAt t 0x008 == 0x00000300 && t.txBase == 1 && t.txNext == 4 && t.tmrCnt == 0) = true := by decide

/-- 95_test_vectors.md H13. -/
theorem test_illegal_command_of_set_reserved_bits :
    leads (exec (.regWrite 0x004 0x00000101) State.reset)
      (fun t => t.irqStatus == 0x20 && t.lastOp == 0x0F && t.events == [⟨.illegalCmd, some 0x101⟩]) = true := by decide

/-- 95_test_vectors.md H3: writing 1 clears a bit, and only that bit. -/
theorem test_irqStatus_write_clears_ones :
    leads (exec (.regWrite 0x00C 0x01) { State.reset with irqStatus := 0x21 }) (fun t => t.irqStatus == 0x20) = true := by
  decide

/-- 95_test_vectors.md S25: a write of TX_LEN while SENDING is ignored. -/
theorem test_txLen_write_is_ignored_while_sending :
    leads (exec (.regWrite 0x024 5) { sender 0 1 4 9 with txLen := 200 })
      (fun t => t.txLen == 200 && t.resp == .writeDone) = true := by decide

/-! ## Buffers -/

/-- 95_test_vectors.md H5: bytes 68 65 6C 6C at offsets 0 to 3. -/
theorem test_txbuf_write_is_little_endian :
    leads (exec (.txbufWr32 0 0x6C6C6568) State.reset)
      (fun t => t.txbuf == [(0, 0x68), (1, 0x65), (2, 0x6C), (3, 0x6C)]) = true := by decide

/-- 95_test_vectors.md H5: R16 0x10002. -/
theorem test_txbuf_read_is_little_endian :
    leads (exec (.txbufRd16 2) { State.reset with txbuf := [(2, 0x6C), (3, 0x6D)] })
      (fun t => t.resp == .readDone 0x00006D6C) = true := by decide

/-- 95_test_vectors.md H6: bytes 6 and 7 were never written. -/
theorem test_txbuf_read_of_unwritten_byte_faults :
    faults (exec (.txbufRd32 4) { State.reset with txbuf := [(4, 0xAA), (5, 0xBB)] })
      (.unwrittenBufferRead .txbuf 6) = true := by decide

/-- 95_test_vectors.md H11: R32 0x10400 with P_TXBUF_BYTES = 1024. -/
theorem test_txbuf_read_past_the_end_is_a_bus_error :
    leads (exec (.txbufRd32 0x400) { State.reset with params := { Config.Params.default with txbufBytes := 1024 } })
      (fun t => t.resp == .readError 0) = true := by decide

/-- 44_host.md R245's example: R8 0x2000A. -/
theorem test_rxbuf_read :
    leads (exec (.rxbufRd8 0x000A) { State.reset with rxbuf := [(10, 0x64)] })
      (fun t => t.resp == .readDone 0x00000064) = true := by decide

/-! ## Sender -/

/-- 42_sender.md R172's example, cut to two payload bytes. -/
theorem test_txSend_emits_and_arms :
    leads (exec .txSend { sender 0 0 1 0 with txLen := 2, txbuf := [(0, 0x68), (1, 0x65)] })
      (fun t => t.linkOut == [[0x01, 0x02, 0x00, 0x00, 0x07, 0x08, 0x00, 0x68, 0x65]] && t.txNext == 1 && t.tmrAct &&
        t.tmrCnt == 10000 && t.txFrames == 1) = true := by decide

/-- 95_test_vectors.md S8: stuck while ready is 0. -/
theorem test_txSend_waits_for_ready :
    leads (exec .txSend { sender 0 0 1 0 with txLen := 2, txbuf := [(0, 0x68), (1, 0x65)], ready := false })
      (fun t => t.linkOut == [] && t.txNext == 0) = true := by decide

/-- 95_test_vectors.md S11 and S15. -/
theorem test_ackAccept_of_the_last_packet :
    leads (exec .ackAccept (arriving (ack 0x03) (sender 3 4 4 500)))
      (fun t => t.txBase == 4 && t.tmrCnt == 0 && t.irqStatus == 0x01 && regValueAt t 0x008 == 0x00001102) = true := by
  decide

/-- 95_test_vectors.md S22: the late ack. -/
theorem test_ackAccept_raises_next_after_a_timeout :
    leads (exec .ackAccept (arriving (ack 0x00) { sender 0 0 2 0 with rflag := 0x03 }))
      (fun t => t.rflag == 0x02 && t.txBase == 1 && t.txNext == 1 && !t.tmrAct && t.phase == .sending) = true := by decide

/-- 95_test_vectors.md S13. -/
theorem test_ackIgnore :
    leads (exec .ackIgnore (arriving (ack 0x03) (sender 1 4 4 77)))
      (fun t => t.txBase == 1 && t.tmrCnt == 77 && t.rxFrames == 1 && t.lastOp == 0x12) = true := by decide

/-- 95_test_vectors.md S16: LAST_OP is not written. -/
theorem test_tickCount : leads (exec .tickCount (sender 0 2 2 3)) (fun t => t.tmrCnt == 2 && t.lastOp == 0xFF) = true := by
  decide

/-- 95_test_vectors.md S18: the slots wrap. -/
theorem test_timerExpire_marks_the_window :
    leads (exec .timerExpire (sender 6 10 20 1))
      (fun t => t.rflag == 0xC3 && t.txNext == 6 && !t.tmrAct && t.timeouts == 1 && t.irqStatus == 0) = true := by decide

/-- 95_test_vectors.md S19: RTO = 0 expires at the first tick. -/
theorem test_tick_at_zero_expires :
    leads (step { sender 0 1 1 0 with agenda := [.tick] }) (fun t => t.timeouts == 1 && t.lastOp == 0x14) = true := by
  decide

/-- 95_test_vectors.md V15. -/
theorem test_tickIdle_in_receiving :
    leads (step { receiver 3 with agenda := [.tick] }) (fun t => t == receiver 3) = true := by decide

/-- 95_test_vectors.md S21. -/
theorem test_sndPeerClosed :
    leads (exec .sndPeerClosed (arriving [] (sender 0 1 1 5)))
      (fun t => t.irqStatus == 0x40 && t.rxFrames == 1 && t.phase == .sending && t.tmrCnt == 5) = true := by decide

/-! ## Receiver and discarded frames -/

/-- 95_test_vectors.md V6 and V7: RX_EXPECTED wraps, and the ack is 7 bytes. -/
theorem test_rxAccept_wraps :
    leads (exec .rxAccept (arriving (data 0xFF 0x00 [0x01]) (receiver 0xFF)))
      (fun t => t.rxExpected == 0x00 && t.linkOut == [ack 0xFF] && t.rxbuf == [(0, 0x01)] && t.rxLen == 1) = true := by
  decide

/-- 95_test_vectors.md V9, with 3 bytes for room of 1. -/
theorem test_rxAccept_overflow :
    leads (exec .rxAccept (arriving (data 0x01 0x00 [0x0A, 0x0B, 0x0C])
        { receiver 0x01 with rxLen := 15, params := { Config.Params.default with rxbufBytes := 16 } }))
      (fun t => t.rxLen == 16 && t.rxbuf == [(15, 0x0A)] && t.irqStatus == 0x10 && t.rxExpected == 0x02) = true := by
  decide

/-- 95_test_vectors.md V4 and V13: the stored ack goes out again, whatever HDR_CFG says now. -/
theorem test_rxDupack_resends_verbatim :
    leads (exec .rxDupack (arriving (data 0x00 0x01 [0x68]) { receiver 0x01 with hdrCfg := 0x08070304 }))
      (fun t => t.linkOut == [ack 0x00] && t.rxExpected == 0x01 && t.lastOp == 0x21) = true := by decide

/-- 95_test_vectors.md V12. -/
theorem test_rxPeerClose_does_not_wait :
    leads (exec .rxPeerClose (arriving [] { receiver 0x05 with ready := false }))
      (fun t => t.phase == .recvDone && t.irqStatus == 0x02 && t.linkOut == []) = true := by decide

/-- 95_test_vectors.md C12. -/
theorem test_frameShort :
    leads (exec .frameShort (arriving [0x00, 0x01, 0x02] (sender 0 1 1 5)))
      (fun t => t.irqStatus == 0x04 && t.lastOp == 0x30 && t.txBase == 0 && t.rxFrames == 1) = true := by decide

/-- 95_test_vectors.md C13. -/
theorem test_frameOversize :
    leads (exec .frameOversize (arriving (List.replicate 72 0x00) (sender 0 1 1 5)))
      (fun t => t.irqStatus == 0x08 && t.lastOp == 0x31 && t.txBase == 0) = true := by decide

/-- 95_test_vectors.md C15: the close marker after RECV_DONE is a stray frame. -/
theorem test_frameStray_takes_the_close_marker :
    leads (step (arriving [] { receiver 0x01 with phase := .recvDone }))
      (fun t => t.irqStatus == 0x80 && t.lastOp == 0x32 && t.phase == .recvDone) = true := by decide

/-! ## Witnesses: a state and operands that meet each statement's hypotheses together -/

/-- A two-byte transfer of one packet, sent, its timer at the last tick, and the schedule of the timeout statements. -/
def expiring : State :=
  { sender 0 1 1 1 with
    txLen := 2, txbuf := [(0, 0x68), (1, 0x69)], agenda := [.tick, .input (.op 0x10), .engine] }

/-- The two buffers' last four bytes written. -/
def written : State :=
  { State.reset with
    txbuf := [(65532, 0x01), (65533, 0x02), (65534, 0x03), (65535, 0x04)],
    rxbuf := [(65532, 0x05), (65533, 0x06), (65534, 0x07), (65535, 0x08)] }

theorem test_fetched_inv : State.Inv (State.reset.withFetchWord 24 0x010000) :=
  ⟨by decide, by decide, by decide, by decide, by decide, by decide, by decide, by decide⟩

theorem test_expiring_inv : State.Inv expiring :=
  ⟨by decide, by decide, by decide, by decide, by decide, by decide, by decide, by decide⟩

theorem test_receiver_inv : State.Inv (arriving (data 0x00 0x00 [0x01]) (receiver 0x00)) :=
  ⟨by decide, by decide, by decide, by decide, by decide, by decide, by decide, by decide⟩

theorem witness_DecodeReadsBackEveryEncodedInstruction :
    Instr.wf (.regWrite 0xFFFC 0xFFFFFFFF) = true ∧ Instr.wf (.cmdIllegal 4) = true ∧
      Instr.wf (.busError true 3 0x3FFFF) = true := by decide

theorem witness_EveryDecodedInstructionIsWellFormed : decode (.hreq 0x1FFFFF 7) = .ok (.busError true 3 0x3FFFF) := by
  decide

theorem witness_EncodingADecodedInputGivesItBack :
    decode (.cmd 0xFFFFFFFF) = .ok (.cmdIllegal 0xFFFFFFFF) ∧ decode (.op 0x32) = .ok .frameStray ∧
      decode (.hreq 0x19FFFC 7) = .ok (.txbufWr32 0xFFFC 7) ∧ hreqWe 0x19FFFC = true ∧
      (∃ r ∈ hreqRows, r.hits 0x19FFFC = true) := by decide

theorem witness_NoTwoDescriptorRowsMatchOneAccess : ∃ r ∈ hreqRows, r.hits 0x0AFFFC = true := by decide

theorem witness_IllegalAccessesDecodeToBusError :
    ((3 : BitVec 2) = 3) ∧ ((0 : BitVec 2) = 0 ∧ (0 : BitVec 2) ≠ 2) ∧
      ((0xFFFF : BitVec 16).toNat % 2 ^ (1 : BitVec 2).toNat ≠ 0) ∧ ((2 : BitVec 2) = 2 ∧ true = true) := by decide

theorem witness_CodecLawBothWays_packet : (List.replicate 64 (0xFF : Byte)).length ≤ 64 := by decide

theorem witness_CodecLawBothWays_frame :
    IsPacket (data 0xFF 0x01 (List.replicate 64 0x41)) ∧
      (data 0xFF 0x01 (List.replicate 64 0x41)).getD 6 0 = 0x01 ∧ IsPacket (ack 0x00) ∧ (ack 0x00).getD 6 0 = 0x00 := by
  decide

theorem witness_DecodeTakesFieldsByPosition :
    1 ≤ ([0x00] : Frame).length ∧ ([0x00, 0x01, 0x02, 0x03, 0x04, 0x05] : Frame).length < 7 := by decide

theorem witness_WindowComparatorIsTheAbsoluteTest :
    (255 : BitVec 16).toNat ≤ (263 : BitVec 16).toNat ∧ (263 : BitVec 16).toNat - (255 : BitVec 16).toNat ≤ 8 := by decide

theorem witness_StepRunsTheDecodedInstruction :
    (State.reset.withFetchWord 8 0x10).agenda = .input (.op 0x10) :: [] ∧ decode (.op 0x10) = .ok .txSend := by decide

theorem witness_ATickRunsTheOperationItEnables :
    (expiring.agenda = .tick :: expiring.agenda.tail ∧ TimerRuns expiring ∧ expiring.tmrCnt.toNat ≤ 1) ∧
      (TimerRuns { expiring with tmrCnt := 2 } ∧ 1 < ({ expiring with tmrCnt := 2 } : State).tmrCnt.toNat) ∧
      ¬ TimerRuns { State.reset with agenda := [.tick] } := by decide

theorem witness_TheEngineTakesSomeEnabledOperation :
    State.reset.agenda = [] ∧ ({ State.reset with agenda := [.engine] } : State).agenda = .engine :: [] := by decide

theorem witness_LinkStepsTouchOnlyTheirPort :
    ({ State.reset with agenda := [.deliver [0x01]] } : State).agenda = .deliver [0x01] :: [] ∧
      ({ State.reset with agenda := [.take] } : State).agenda = .take :: [] ∧
      ({ State.reset with agenda := [.drop] } : State).agenda = .drop :: [] ∧
      ({ State.reset with agenda := [.setReady false] } : State).agenda = .setReady false :: [] := by decide

theorem witness_ResetAtAnyStepGivesTheResetValues :
    ({ receiver 3 with agenda := [.reset] } : State).agenda = .reset :: [] := by decide

theorem witness_AfterResetEveryOffsetReadsItsMapValue : (0xFFFC : BitVec 16).toNat % 4 = 0 := by decide

theorem witness_TxStartOpensTheWindowOrIsIllegal_legal :
    Stopped { State.reset with txLen := 65536 } ∧
      ({ State.reset with txLen := 65536 } : State).txLen.toNat ≤ State.reset.params.txbufBytes := by decide

theorem witness_TxStartOpensTheWindowOrIsIllegal_refused :
    ¬ (Stopped (sender 0 1 1 5) ∧ (sender 0 1 1 5).txLen.toNat ≤ (sender 0 1 1 5).params.txbufBytes) ∧
      ¬ (Stopped { State.reset with txLen := 65537 } ∧
        ({ State.reset with txLen := 65537 } : State).txLen.toNat ≤ State.reset.params.txbufBytes) := by decide

theorem witness_RxStartBuildsTheInitialAckOrIsIllegal : Stopped State.reset ∧ ¬ Stopped (receiver 0) := by decide

theorem witness_IllegalCommandsOnlyRaiseTheirEvent :
    3 < (4 : Word).toNat ∧ ¬ Stopped (receiver 0) ∧
      ¬ (Stopped (receiver 0) ∧ (receiver 0).txLen.toNat ≤ (receiver 0).params.txbufBytes) := by decide

theorem witness_OperationRowsOfCommandsRunTheirCommand :
    Stopped { receiver 3 with phase := .recvDone, txLen := 65536 } ∧
      ({ receiver 3 with phase := .recvDone, txLen := 65536 } : State).txLen.toNat ≤
        (receiver 3).params.txbufBytes := by decide

theorem witness_RegisterReadsReturnTheMapAndChangeNothing :
    (0x050 : BitVec 16).toNat % 4 = 0 ∧ 0x050 ≤ (0x050 : BitVec 16).toNat ∧ (0xFFFC : BitVec 16).toNat % 4 = 0 := by decide

theorem witness_RegisterWritesFollowTheirAccessType :
    (0x008 : BitVec 16).toNat % 4 = 0 ∧
      (0x008 : BitVec 16) ∉ [0x000, 0x004, 0x00C, 0x010, 0x014, 0x018, 0x01C, 0x024] := by decide

theorem witness_TxbufReadsAreLittleEndian :
    Memory.read written.txbuf 65532 = some 0x01 ∧ Memory.read written.txbuf 65533 = some 0x02 ∧
      Memory.read written.txbuf 65534 = some 0x03 ∧ Memory.read written.txbuf 65535 = some 0x04 ∧
      (0xFFFC : BitVec 16).toNat = 65532 ∧ 65532 % 4 = 0 ∧ 65532 + 4 ≤ written.params.txbufBytes ∧
      written.params.txbufBytes < (0xFFFF : BitVec 16).toNat + 2 := by decide

theorem witness_RxbufReadsAreLittleEndian :
    Memory.read written.rxbuf 65532 = some 0x05 ∧ Memory.read written.rxbuf 65533 = some 0x06 ∧
      Memory.read written.rxbuf 65534 = some 0x07 ∧ Memory.read written.rxbuf 65535 = some 0x08 ∧
      (0xFFFC : BitVec 16).toNat = 65532 ∧ 65532 % 4 = 0 ∧ 65532 + 4 ≤ written.params.rxbufBytes ∧
      written.params.rxbufBytes < (0xFFFF : BitVec 16).toNat + 2 := by decide

theorem witness_TxbufWritesStoreExactlyTheirBytes :
    (0xFFFF : BitVec 16).toNat % 1 = 0 ∧ (0xFFFF : BitVec 16).toNat + 1 ≤ State.reset.params.txbufBytes ∧
      (0xFFFE : BitVec 16).toNat % 2 = 0 ∧ (0xFFFE : BitVec 16).toNat + 2 ≤ State.reset.params.txbufBytes ∧
      (0xFFFC : BitVec 16).toNat % 4 = 0 ∧ (0xFFFC : BitVec 16).toNat + 4 ≤ State.reset.params.txbufBytes ∧
      State.reset.params.txbufBytes < (0xFFFE : BitVec 16).toNat + 4 := by decide

theorem witness_BusErrorsChangeNothingButTheResponse :
    ∃ s : State, s.params.Legal ∧ s.params.txbufBytes < (0x0040 : BitVec 16).toNat + 1 ∧
      s.params.rxbufBytes < (0x0000 : BitVec 16).toNat + 2 :=
  ⟨{ State.reset with params := { txbufBytes := 64, rxbufBytes := 1, tickNs := 1 } }, by decide⟩

theorem witness_ReadingAByteWithNoValueFaults_hostReads :
    (∀ j < 3, (Memory.read [(65532, 0x01), (65533, 0x02), (65534, 0x03)]
        ((0xFFFC : BitVec 16).toNat + j)).isSome = true) ∧
      Memory.read [(65532, 0x01), (65533, 0x02), (65534, 0x03)] ((0xFFFC : BitVec 16).toNat + 3) = none ∧
      (0xFFFC : BitVec 16).toNat % 4 = 0 ∧ (0xFFFC : BitVec 16).toNat + 4 ≤ State.reset.params.txbufBytes ∧
      (0xFFFC : BitVec 16).toNat + 4 ≤ State.reset.params.rxbufBytes := by decide

theorem witness_ReadingAByteWithNoValueFaults_txSend :
    ∃ s : State, MaySend s ∧ 1 < (fragmentAt s).2 ∧
      (∀ j < 1, (Memory.read s.txbuf ((fragmentAt s).1 + j)).isSome = true) ∧
      Memory.read s.txbuf ((fragmentAt s).1 + 1) = none :=
  ⟨{ sender 0 0 1 0 with txLen := 2, txbuf := [(0, 0x68)] }, by decide⟩

theorem witness_TxSendEmitsTheNextPacket :
    ∃ s : State, MaySend s ∧ ([0x68, 0x69] : List Byte).length = (fragmentAt s).2 ∧
      ∀ k < ([0x68, 0x69] : List Byte).length,
        Memory.read s.txbuf ((fragmentAt s).1 + k) = ([0x68, 0x69] : List Byte)[k]? :=
  ⟨{ sender 3 10 11 5 with txLen := 642, txbuf := [(640, 0x68), (641, 0x69)] }, by decide⟩

theorem witness_AckAcceptAdvancesTheWindowByOne :
    ∃ s : State, s.phase = .sending ∧ s.linkIn = ack 0x00 :: [] ∧ IsPacket (ack 0x00) ∧
      (ack 0x00).getD 3 0 = s.txBase.setWidth 8 ∧
      (257 : BitVec 16) = (if s.txNext.toNat < (s.txBase + 1).toNat then s.txBase + 1 else s.txNext) :=
  ⟨arriving (ack 0x00) (sender 256 256 300 0), by decide⟩

theorem witness_OtherAcksAreIgnored :
    ∃ s : State, s.phase = .sending ∧ s.linkIn = ack 0xFF :: [] ∧ IsPacket (ack 0xFF) ∧
      (ack 0xFF).getD 3 0 ≠ s.txBase.setWidth 8 :=
  ⟨arriving (ack 0xFF) (sender 256 257 300 5), by decide⟩

theorem witness_TicksCountDownOrChangeNothing : TimerRuns (sender 0 1 1 2) ∧ 1 < (sender 0 1 1 2).tmrCnt.toNat := by
  decide

theorem witness_TimerExpireMarksAndRewindsTheWindow : TimerRuns (sender 6 14 20 1) ∧ (sender 6 14 20 1).tmrCnt.toNat ≤ 1 := by
  decide

theorem witness_PeerClosedLeavesTheSenderRunning :
    (sender 0 1 1 5).phase = .sending ∧ (arriving [] (sender 0 1 1 5)).linkIn = [] :: [] := by decide

theorem witness_RxAcceptAppendsAndAcknowledges :
    ∃ s : State, s.phase = .receiving ∧ s.ready = true ∧ s.linkIn = data 0xFF 0x00 [0x01, 0x02] :: [] ∧
      IsPacket (data 0xFF 0x00 [0x01, 0x02]) ∧ (data 0xFF 0x00 [0x01, 0x02]).getD 2 0 = s.rxExpected ∧
      s.params.Legal ∧ s.rxLen.toNat ≤ s.params.rxbufBytes ∧
      1 = min ((data 0xFF 0x00 [0x01, 0x02]).length - 7) (s.params.rxbufBytes - s.rxLen.toNat) :=
  ⟨{ receiver 0xFF with rxLen := 65535, linkIn := [data 0xFF 0x00 [0x01, 0x02]] }, by decide⟩

theorem witness_RxDupackResendsTheLastAckVerbatim :
    ∃ s : State, s.phase = .receiving ∧ s.ready = true ∧ s.linkIn = data 0x02 0x00 [0x01] :: [] ∧
      IsPacket (data 0x02 0x00 [0x01]) ∧ (data 0x02 0x00 [0x01]).getD 2 0 ≠ s.rxExpected ∧ s.la = some (ack 0x00) :=
  ⟨arriving (data 0x02 0x00 [0x01]) (receiver 0x01), by decide⟩

theorem witness_RxPeerCloseEndsTheReceiver :
    (receiver 3).phase = .receiving ∧ (arriving [] (receiver 3)).linkIn = [] :: [] := by decide

theorem witness_DiscardedFramesOnlyRaiseTheirEvent :
    (arriving [0x00] (receiver 3)).linkIn = [0x00] :: [] ∧ (receiver 3).phase = .receiving ∧
      1 ≤ ([0x00] : Frame).length ∧ ([0x00] : Frame).length ≤ 6 ∧
      (sender 0 1 1 5).phase = .sending ∧ 72 ≤ (List.replicate 72 (0x00 : Byte)).length ∧
      Stopped State.reset := by decide

theorem witness_WhileStoppedTheEngineOnlyDiscardsFrames :
    Stopped (arriving (ack 0x00) State.reset) ∧ (arriving (ack 0x00) State.reset).agenda = [] ∧
      ({ State.reset with agenda := [.engine, .tick] } : State).agenda = .engine :: [.tick] ∧
      ({ State.reset with agenda := [.tick] } : State).agenda = .tick :: [] := by decide

theorem witness_OperationsNotEnabledAreNotTaken :
    ¬ MaySend State.reset ∧ ¬ (TimerRuns State.reset ∧ 1 < State.reset.tmrCnt.toNat) ∧
      ¬ (TimerRuns State.reset ∧ State.reset.tmrCnt.toNat ≤ 1) ∧ State.reset.linkIn = [] ∧
      (classifyFrame { receiver 3 with ready := false } (data 0x03 0x00 []) = .rxAccept ∧
        needsReady .rxAccept = true) ∧
      ¬ Stopped (receiver 3) ∧
      ¬ (Stopped (receiver 3) ∧ (receiver 3).txLen.toNat ≤ (receiver 3).params.txbufBytes) := by decide

theorem witness_EveryStepKeepsTheInvariant : State.Inv expiring ∧ ∃ t, step expiring = .next t :=
  ⟨test_expiring_inv, _, rfl⟩

theorem witness_StepsStopOnlyForUnwrittenBytesOrUnlistedInputs :
    State.Inv (State.reset.withFetchWord 24 0x010000) ∧
      faults (step (State.reset.withFetchWord 24 0x010000)) (.unwrittenBufferRead .txbuf 0) = true ∧
      step { State.reset with agenda := [.input (.op 0x17)] } = .refused (.undecodable (.unlistedOpCode 0x17)) :=
  ⟨test_fetched_inv, by decide, rfl⟩

theorem witness_NoStepChangesTheParameters : ∃ t, step written = .next t := ⟨_, rfl⟩

theorem witness_OnlyTheNamedOperationsWriteState :
    leads (exec (.regWrite 0x004 0x00000001) { State.reset with txLen := 1 }) (fun t => t.phase != .idle) = true ∧
      Instr.wf (.regWrite 0x004 0x00000001) = true := by decide

theorem witness_BaseAdvancesOnlyOnItsOwnAck :
    leads (exec .ackAccept (arriving (ack 0x03) (sender 3 4 4 5))) (fun t => t.txBase != 3) = true ∧
      leads (exec .txStart { sender 3 4 4 5 with phase := .idle }) (fun t => t.txBase != 3) = true := by decide

theorem witness_ReassemblyChangesOnlyOnAnExactMatch :
    leads (exec .rxAccept (arriving (data 0x03 0x00 [0x01]) (receiver 0x03)))
        (fun t => t.rxExpected != 3 && t.rxLen != 0 && t.rxbuf != []) = true ∧
      leads (exec .rxStart { receiver 0x03 with phase := .recvDone }) (fun t => t.rxExpected != 3) = true := by decide

theorem witness_BuffersAreWrittenOnlyByTheirWriters :
    leads (exec (.txbufWr8 0 0x41) State.reset) (fun t => t.txbuf != []) = true ∧
      leads (exec .rxAccept (arriving (data 0x03 0x00 [0x01]) (receiver 0x03))) (fun t => t.rxbuf != []) = true := by
  decide

theorem witness_EventBitsStayUntilTheHostClearsThem :
    ({ State.reset with irqStatus := 0x80 } : State).irqStatus.getLsbD 7 = true ∧
      leads (exec (.regWrite 0x00C 0x80) { State.reset with irqStatus := 0x80 })
        (fun t => t.irqStatus.getLsbD 7 == false) = true := by decide

theorem witness_EveryOperationRaisesAtMostOneEvent :
    leads (exec .illegalCmd State.reset) (fun t => t.events == [⟨.illegalCmd, none⟩]) = true ∧
      leads (exec .nop State.reset) (fun t => t.events == []) = true := by decide

theorem witness_ReadsHaveNoSideEffect :
    leads (exec (.rxbufRd32 0xFFFC) written) (fun t => t.resp == .readDone 0x08070605) = true := by decide

theorem witness_CountersCountFramesAndTimeouts :
    leads (exec .rxDupack (arriving (data 0x09 0x00 []) (receiver 0x01)))
      (fun t => t.txFrames == 1 && t.rxFrames == 1) = true ∧
      leads (exec .txStart { State.reset with txFrames := 5 }) (fun t => t.txFrames == 0) = true := by decide

theorem witness_TimerChangesAsTheSummarySays :
    leads (exec .ackAccept (arriving (ack 0x00) (sender 0 3 4 5))) (fun t => t.tmrAct && t.tmrCnt == 10000) = true ∧
      leads (exec .tickCount (sender 0 3 4 2)) (fun t => t.tmrCnt == 1) = true := by decide

theorem witness_TheReceiverAcknowledgesTheLastInOrderPacket :
    State.Inv (arriving (data 0x00 0x00 [0x01]) (receiver 0x00)) ∧ (receiver 0x00).phase = .receiving ∧
      leads (exec .rxAccept (arriving (data 0x00 0x00 [0x01]) (receiver 0x00))) (fun t => t.linkOut != []) = true :=
  ⟨test_receiver_inv, by decide⟩

theorem witness_TheSenderReadsOnlyTheAckByte :
    (sender 0 1 1 5).phase = .sending ∧ IsPacket (ack 0x00) ∧ IsPacket (data 0x09 0x01 [0x01]) ∧
      (ack 0x00).getD 3 0 = (data 0x09 0x01 [0x01]).getD 3 0 := by decide

theorem witness_TheReceiverReadsOnlySeqAndPayload :
    (receiver 0).phase = .receiving ∧ (receiver 0).ready = true ∧ IsPacket (data 0x00 0x01 [0x01]) ∧
      IsPacket ([0x77, 0x77, 0x00, 0x05, 0x01, 0x00, 0x03, 0x01] : Frame) ∧
      (data 0x00 0x01 [0x01]).getD 2 0 = ([0x77, 0x77, 0x00, 0x05, 0x01, 0x00, 0x03, 0x01] : Frame).getD 2 0 ∧
      (data 0x00 0x01 [0x01]).drop 7 = ([0x77, 0x77, 0x00, 0x05, 0x01, 0x00, 0x03, 0x01] : Frame).drop 7 := by decide

theorem witness_TheNthTickExpiresTheTimer :
    TimerRuns { sender 0 1 1 2 with agenda := [.tick, .tick] } ∧
      ({ sender 0 1 1 2 with agenda := [.tick, .tick] } : State).tmrCnt.toNat = 2 ∧
      ({ sender 0 1 1 2 with agenda := [.tick, .tick] } : State).agenda = List.replicate 2 .tick ++ [] := by decide

theorem witness_ATimeoutResendsTheWholeWindow :
    State.Inv expiring ∧ TimerRuns expiring ∧ expiring.tmrCnt.toNat ≤ 1 ∧ expiring.ready = true ∧
      (∀ a < expiring.txLen.toNat, (Memory.read expiring.txbuf a).isSome = true) ∧
      expiring.txNext.toNat = expiring.txBase.toNat + 1 ∧
      expiring.agenda = .tick :: (List.replicate 1 (.input (.op 0x10)) ++ [.engine]) :=
  ⟨test_expiring_inv, by decide⟩

theorem witness_TheWindowStandsAtPBase :
    ∃ addr, addr < Config.pBase ∨ Config.pBase + 2 ^ 18 ≤ addr := ⟨Config.pBase + 2 ^ 18, .inr (Nat.le_refl _)⟩

end Sys2Proof.Tests
end

section
/-! The next states of a step, said once, and from them the statements of spec/00_scope.md: a step runs the instruction
its input decodes to (R11, R12), and no step changes the parameters (R8). -/

namespace Sys2Proof.Machine

/-! ## What a step can do -/

/-- `StepEffect s t`: a step from `s` may give `t`, by the agent that moves. Besides that agent's own effect only the
agenda and the engine's choice index may move on. -/
inductive StepEffect (s : State) : State → Prop where
  /-- The engine has nothing to take. -/
  | wait (rest) : StepEffect s { s with agenda := rest }
  /-- An input, a tick or the engine runs an instruction. -/
  | run (rest k i t) (h : exec i { s with agenda := rest, choiceIdx := k } = .next t) : StepEffect s t
  | deliver (rest f) : StepEffect s (deliver f { s with agenda := rest })
  | take (rest) : StepEffect s (takeOldest { s with agenda := rest })
  | drop (rest) : StepEffect s (dropNewest { s with agenda := rest })
  | setReady (rest level) : StepEffect s (setReady level { s with agenda := rest })
  | reset (rest) : StepEffect s (applyReset { s with agenda := rest })

theorem inputTurn_of_decode {r : RawInput} {i : Instr} (h : decode r = .ok i) (s : State) :
    inputTurn r s = exec i s := by
  rw [inputTurn, h]

theorem inputTurn_next {r : RawInput} {s t : State} (h : inputTurn r s = .next t) : ∃ i, exec i s = .next t := by
  cases hd : decode r with
  | ok i => exact ⟨i, inputTurn_of_decode hd s ▸ h⟩
  | error e => rw [inputTurn, hd] at h; cases h

theorem engineTurn_stepEffect {s t : State} {rest : List Turn} (h : engineTurn { s with agenda := rest } = .next t) :
    StepEffect s t := by
  rcases engineTurn_cases { s with agenda := rest } with hw | ⟨i, k, hi⟩
  · cases hw.symm.trans h
    exact .wait rest
  · exact .run rest k i t (hi.symm.trans h)

theorem runTurn_stepEffect {s t : State} {turn : Turn} {rest : List Turn}
    (h : runTurn turn { s with agenda := rest } = .next t) : StepEffect s t := by
  cases turn with
  | input r =>
    obtain ⟨i, hi⟩ := inputTurn_next h
    exact .run rest s.choiceIdx i t hi
  | tick => exact .run rest s.choiceIdx _ t h
  | engine => exact engineTurn_stepEffect h
  | deliver f => cases h; exact .deliver rest f
  | take => cases h; exact .take rest
  | drop => cases h; exact .drop rest
  | setReady level => cases h; exact .setReady rest level
  | reset => cases h; exact .reset rest

/-- Whenever a step answers a next state, that state is one of the step effects. -/
theorem step_stepEffect {s t : State} (h : step s = .next t) : StepEffect s t := by
  cases ha : s.agenda with
  | nil =>
    rw [step_nil ha] at h
    exact engineTurn_stepEffect (rest := s.agenda) h
  | cons turn rest =>
    rw [step_cons ha] at h
    exact runTurn_stepEffect h

/-! ## The parameters are kept (R8) -/

@[simp] theorem txStart_params (s : State) : (txStart s).params = s.params := by
  obtain ⟨_, _, _, h, _⟩ := txStart_form s
  rw [h]

@[simp] theorem ackAccept_params (s : State) : (ackAccept s).params = s.params := by
  obtain ⟨_, _, _, _, _, _, _, h, _⟩ := ackAccept_form s
  rw [h]

@[simp] theorem append_params (payload : List Byte) (s : State) : (append payload s).params = s.params := by
  obtain ⟨_, _, _, _, h, _⟩ := append_form payload s
  rw [h]

@[simp] theorem sendFrame_params (f : Frame) (s : State) : (sendFrame f s).params = s.params := by
  obtain ⟨_, _, h, _⟩ := sendFrame_form f s
  rw [h]

/-- The composite updates have a lemma of their own; every other effect is a record update that does not name the
parameters. -/
theorem Effect.params_eq {i : Instr} {s t : State} (h : Effect i s t) : t.params = s.params := by
  cases h
  case txStart => exact txStart_params _
  case txSend => exact sendFrame_params _ _
  case ackAccept => exact ackAccept_params _
  case rxAccept => exact append_params _ _
  all_goals rfl

theorem exec_params {i : Instr} {s t : State} (h : exec i s = .next t) : t.params = s.params :=
  (exec_effect h).params_eq

theorem StepEffect.params_eq {s t : State} (h : StepEffect s t) : t.params = s.params := by
  cases h with
  | run rest k i _ h => exact (exec_params h :)
  | wait | deliver | take | drop | setReady | reset => rfl

end Sys2Proof.Machine

namespace Sys2Proof.Proofs

open Sys2Proof Sys2Proof.Machine

/-- Settles O44, by the case analysis of what a step can do. -/
theorem noStepChangesTheParameters : Obligations.NoStepChangesTheParameters :=
  fun _ _ h => (step_stepEffect h).params_eq

/-- Settles O10: the turn is taken off the agenda, and its input is decoded and run. -/
theorem stepRunsTheDecodedInstruction : Obligations.StepRunsTheDecodedInstruction := by
  intro s r rest i ha hd
  calc step s = inputTurn r { s with agenda := rest } := step_cons ha
    _ = exec i { s with agenda := rest } := inputTurn_of_decode hd _

end Sys2Proof.Proofs
end

section
/-! How an instruction may change each register of spec/10_state.md, said once per group of fields (STATE, the buffers,
the events, the ports with their counters, the timer), and from that the statements of spec/10_state.md. -/

namespace Sys2Proof.Machine

/-! ## STATE (R21) -/

@[simp] theorem append_phase (payload : List Byte) (s : State) : (append payload s).phase = s.phase := by
  obtain ⟨_, _, _, _, h, -⟩ := append_form payload s
  rw [h]

@[simp] theorem sendFrame_phase (f : Frame) (s : State) : (sendFrame f s).phase = s.phase := by
  obtain ⟨_, _, h, -⟩ := sendFrame_form f s
  rw [h]

/-- The instructions R21 names, and the write of CMD that runs a command among them. -/
abbrev WritesState (i : Instr) : Prop :=
  i ∈ [Instr.txStart, .cmdTxStart, .ackAccept, .rxStart, .cmdRxStart, .rxPeerClose, .close, .cmdClose] ∨
    ∃ w, i = .regWrite 0x004 w ∧ decodeCmd w ∈ [Instr.cmdTxStart, .cmdRxStart, .cmdClose]

theorem not_wf_cmdIllegal {w : Word} (h : w.toNat ≤ 3) : (Instr.cmdIllegal w).wf = false := by
  simpa [Instr.wf, illegalCommandWord] using h

/-- The four forms of a command that writes STATE; the last is not well-formed (R96). -/
theorem writesState_of_command {i op cmd : Instr} {w : Word} (hw : i.wf = true)
    (hi : i = op ∨ i = cmd ∨ i = .regWrite 4 w ∨ i = .cmdIllegal w)
    (hop : WritesState op) (hcmd : WritesState cmd)
    (hdec : decodeCmd w ∈ [Instr.cmdTxStart, .cmdRxStart, .cmdClose]) (hle : w.toNat ≤ 3) : WritesState i := by
  rcases hi with rfl | rfl | rfl | rfl
  · exact hop
  · exact hcmd
  · exact .inr ⟨w, rfl, hdec⟩
  · rw [not_wf_cmdIllegal hle] at hw
    cases hw

theorem Effect.phase_eq_or_writesState {i : Instr} {s t : State} (h : Effect i s t) (hw : i.wf = true) :
    t.phase = s.phase ∨ WritesState i := by
  cases h
  case txStart hi _ | rxStart hi _ | close hi =>
    exact .inr (writesState_of_command hw hi (.inl (by simp)) (.inl (by simp)) (by decide) (by decide))
  case ackAccept | rxPeerClose => exact .inr (.inl (by simp))
  case txSend => exact .inl (sendFrame_phase _ _)
  case rxAccept => exact .inl (append_phase _ _)
  all_goals exact .inl rfl

/-! ## The buffers (R45, R67, R72) -/

@[simp] theorem txStart_txbuf (s : State) : (txStart s).txbuf = s.txbuf := by
  obtain ⟨_, _, _, h, -⟩ := txStart_form s
  rw [h]

@[simp] theorem txStart_rxbuf (s : State) : (txStart s).rxbuf = s.rxbuf := by
  obtain ⟨_, _, _, h, -⟩ := txStart_form s
  rw [h]

@[simp] theorem ackAccept_txbuf (s : State) : (ackAccept s).txbuf = s.txbuf := by
  obtain ⟨_, _, _, _, _, _, _, h, -⟩ := ackAccept_form s
  rw [h]

@[simp] theorem ackAccept_rxbuf (s : State) : (ackAccept s).rxbuf = s.rxbuf := by
  obtain ⟨_, _, _, _, _, _, _, h, -⟩ := ackAccept_form s
  rw [h]

@[simp] theorem sendFrame_txbuf (f : Frame) (s : State) : (sendFrame f s).txbuf = s.txbuf := by
  obtain ⟨_, _, h, -⟩ := sendFrame_form f s
  rw [h]

@[simp] theorem sendFrame_rxbuf (f : Frame) (s : State) : (sendFrame f s).rxbuf = s.rxbuf := by
  obtain ⟨_, _, h, -⟩ := sendFrame_form f s
  rw [h]

@[simp] theorem append_txbuf (payload : List Byte) (s : State) : (append payload s).txbuf = s.txbuf := by
  obtain ⟨_, _, _, _, h, -⟩ := append_form payload s
  rw [h]

theorem Effect.txbuf_eq_or_write {i : Instr} {s t : State} (h : Effect i s t) :
    t.txbuf = s.txbuf ∨ ∃ o w, i ∈ [Instr.txbufWr8 o w, .txbufWr16 o w, .txbufWr32 o w] := by
  cases h
  case bufferWrite o n w hi _ => exact .inr ⟨o, w, List.mem_map_of_mem (f := Prod.fst) hi⟩
  case txStart => exact .inl (txStart_txbuf _)
  case txSend => exact .inl (sendFrame_txbuf _ _)
  case ackAccept => exact .inl (ackAccept_txbuf _)
  case rxAccept => exact .inl (append_txbuf _ _)
  all_goals exact .inl rfl

theorem Effect.rxbuf_eq_or_rxAccept {i : Instr} {s t : State} (h : Effect i s t) :
    t.rxbuf = s.rxbuf ∨ i = .rxAccept := by
  cases h
  case rxAccept => exact .inr rfl
  case txStart => exact .inl (txStart_rxbuf _)
  case txSend => exact .inl (sendFrame_rxbuf _ _)
  case ackAccept => exact .inl (ackAccept_rxbuf _)
  all_goals exact .inl rfl

/-! ## Events (R25, R271) -/

/-- From `s` to `t` no event was raised, or just one. -/
def RaisesAtMostOne (s t : State) : Prop :=
  (t.irqStatus = s.irqStatus ∧ t.events = s.events) ∨
    ∃ e info, t.irqStatus = s.irqStatus ||| e.mask ∧ t.events = s.events ++ [⟨e, info⟩]

theorem txStart_raisesAtMostOne (s : State) : RaisesAtMostOne s (txStart s) := by
  obtain ⟨_, _, _, h, hev⟩ := txStart_form s
  rw [h]
  exact hev.imp id fun hdone => ⟨.txDone, none, hdone⟩

theorem ackAccept_raisesAtMostOne (s : State) : RaisesAtMostOne s (ackAccept s) := by
  obtain ⟨_, _, _, _, _, _, _, h, hev, -⟩ := ackAccept_form s
  rw [h]
  exact hev.imp id fun hdone => ⟨.txDone, none, hdone⟩

theorem append_raisesAtMostOne (payload : List Byte) (s : State) : RaisesAtMostOne s (append payload s) := by
  obtain ⟨_, _, _, _, h, hev⟩ := append_form payload s
  rw [h]
  exact hev.imp id fun hover => ⟨.rxOverflow, none, hover⟩

theorem sendFrame_raisesAtMostOne (f : Frame) (s : State) : RaisesAtMostOne s (sendFrame f s) := by
  obtain ⟨_, _, h, -⟩ := sendFrame_form f s
  rw [h]
  exact .inl ⟨rfl, rfl⟩

/-- An instruction raises at most one event, or it is the host's write of 1s to IRQ_STATUS. -/
theorem Effect.events_cases {i : Instr} {s t : State} (h : Effect i s t) :
    RaisesAtMostOne s t ∨
      ∃ w, i = .regWrite 0x00C w ∧ t.irqStatus = s.irqStatus &&& ~~~(w.setWidth 8) ∧ t.events = s.events := by
  cases h
  case clear w => exact .inr ⟨w, rfl, rfl, rfl⟩
  case txStart => exact .inl (txStart_raisesAtMostOne (respond .writeDone s))
  case txSend => exact .inl (sendFrame_raisesAtMostOne _ _)
  case ackAccept => exact .inl (ackAccept_raisesAtMostOne (consume s))
  case rxAccept => exact .inl (append_raisesAtMostOne _ (consume s))
  case illegal | sndPeerClosed | rxPeerClose | discard => exact .inl (.inr ⟨_, _, rfl, rfl⟩)
  all_goals exact .inl (.inl ⟨rfl, rfl⟩)

theorem RaisesAtMostOne.keeps_bit {s t : State} (h : RaisesAtMostOne s t) {k : Nat}
    (hk : s.irqStatus.getLsbD k = true) : t.irqStatus.getLsbD k = true := by
  rcases h with ⟨hirq, -⟩ | ⟨e, _, hirq, -⟩
  · rw [hirq, hk]
  · rw [hirq, BitVec.getLsbD_or, hk, Bool.true_or]

/-- The write of 1s clears only the bits that are 1 in the write data. -/
theorem bit_of_cleared {irq : BitVec 8} {w : Word} {k : Nat} (hk : k < 8) (hset : irq.getLsbD k = true)
    (hclr : (irq &&& ~~~(w.setWidth 8)).getLsbD k = false) : w.getLsbD k = true := by
  simpa [hset, hk] using hclr

/-! ## The link ports and the counters (R40, R41, R42, R46) -/

/-- The two link queues and the counters of what passes them. -/
structure Ports where
  linkIn : List Frame
  linkOut : List Frame
  txFrames : Word
  rxFrames : Word
  timeouts : Word

def State.ports (s : State) : Ports where
  linkIn := s.linkIn
  linkOut := s.linkOut
  txFrames := s.txFrames
  rxFrames := s.rxFrames
  timeouts := s.timeouts

theorem txStart_ports (s : State) : (txStart s).ports = (clearCounters s).ports := by
  obtain ⟨_, _, _, h, -⟩ := txStart_form s
  rw [h]
  rfl

@[simp] theorem txStart_lastOp (s : State) : (txStart s).lastOp = 0x01 := rfl

theorem ackAccept_ports (s : State) : (ackAccept s).ports = s.ports := by
  obtain ⟨_, _, _, _, _, _, _, h, -⟩ := ackAccept_form s
  rw [h]
  rfl

theorem sendFrame_ports (f : Frame) (s : State) : (sendFrame f s).ports = (emit f s).ports := by
  obtain ⟨_, _, h, -⟩ := sendFrame_form f s
  rw [h]
  rfl

theorem emit_append_ports (f : Frame) (payload : List Byte) (s : State) :
    (emit f (append payload s)).ports = (emit f s).ports := by
  obtain ⟨_, _, _, _, h, -⟩ := append_form payload s
  rw [h]
  rfl

/-- From `p` to `q` the frames `sent` went to link-out, the frames `got` left link-in, `expired` timeouts happened, and
the counters count them. -/
structure Counts (p q : Ports) (sent got : List Frame) (expired : Word) : Prop where
  linkOut : q.linkOut = p.linkOut ++ sent
  linkIn : p.linkIn = got ++ q.linkIn
  txFrames : q.txFrames = p.txFrames + BitVec.ofNat 32 sent.length
  rxFrames : q.rxFrames = p.rxFrames + BitVec.ofNat 32 got.length
  timeouts : q.timeouts = p.timeouts + expired

theorem counts_self (p : Ports) : Counts p p [] [] 0 where
  linkOut := (List.append_nil _).symm
  linkIn := rfl
  txFrames := (BitVec.add_zero _).symm
  rxFrames := (BitVec.add_zero _).symm
  timeouts := (BitVec.add_zero _).symm

theorem counts_timerExpire (s : State) : Counts s.ports (timerExpire s).ports [] [] 1 :=
  { counts_self s.ports with timeouts := rfl }

theorem counts_emit (a : Frame) (s : State) : Counts s.ports (emit a s).ports [a] [] 0 :=
  { counts_self s.ports with linkOut := rfl, txFrames := rfl }

theorem counts_consume {s : State} {f : Frame} {rest : List Frame} (hl : s.linkIn = f :: rest) :
    Counts s.ports (consume s).ports [] [f] 0 :=
  { counts_self s.ports with
    rxFrames := rfl
    linkIn := by simp [State.ports, hl] }

theorem counts_emit_consume {s : State} {f : Frame} {rest : List Frame} (a : Frame) (hl : s.linkIn = f :: rest) :
    Counts s.ports (emit a (consume s)).ports [a] [f] 0 :=
  { counts_consume hl with linkOut := rfl, txFrames := rfl }

/-- From `s` to `t` a start cleared the counters and left the link alone. -/
def StartsCounting (s t : State) : Prop :=
  t.ports = (clearCounters s).ports ∧ (t.lastOp = 0x01 ∨ t.lastOp = 0x02)

/-- From `s` to `t` at most one frame was emitted and at most one consumed, and the counters count them. -/
def CountsOneOperation (s t : State) (expired : Word) : Prop :=
  ∃ sent got : List Frame, sent.length ≤ 1 ∧ got.length ≤ 1 ∧ Counts s.ports t.ports sent got expired

theorem countsOneOperation_self (s : State) : CountsOneOperation s s 0 :=
  ⟨[], [], by simp, by simp, counts_self _⟩

theorem countsOneOperation_of_emit {s t : State} {a : Frame} (ht : t.ports = (emit a s).ports) :
    CountsOneOperation s t 0 :=
  ⟨[a], [], by simp, by simp, ht ▸ counts_emit a s⟩

theorem countsOneOperation_of_consume {s t : State} {f : Frame} {rest : List Frame} (hl : s.linkIn = f :: rest)
    (ht : t.ports = (consume s).ports) : CountsOneOperation s t 0 :=
  ⟨[], [f], by simp, by simp, ht ▸ counts_consume hl⟩

theorem countsOneOperation_of_emit_consume {s t : State} {a f : Frame} {rest : List Frame}
    (hl : s.linkIn = f :: rest) (ht : t.ports = (emit a (consume s)).ports) : CountsOneOperation s t 0 :=
  ⟨[a], [f], by simp, by simp, ht ▸ counts_emit_consume a hl⟩

/-- What every instruction but TIMER_EXPIRE does to the link ports and the counters. -/
theorem Effect.ports_cases {i : Instr} {s t : State} (h : Effect i s t) (hi : i ≠ .timerExpire) :
    StartsCounting s t ∨ CountsOneOperation s t 0 := by
  cases h
  case timerExpire => exact absurd rfl hi
  case txStart => exact .inl ⟨txStart_ports _, .inl (txStart_lastOp _)⟩
  case rxStart => exact .inl ⟨rfl, .inr rfl⟩
  case txSend => exact .inr (countsOneOperation_of_emit (sendFrame_ports _ _))
  case ackAccept hl _ => exact .inr (countsOneOperation_of_consume hl (ackAccept_ports _))
  case rxAccept hl _ => exact .inr (countsOneOperation_of_emit_consume hl (emit_append_ports _ _ _))
  case rxDupack hl _ _ => exact .inr (countsOneOperation_of_emit_consume hl rfl)
  case ackIgnore hl _ | sndPeerClosed hl _ | rxPeerClose hl _ | discard hl _ =>
    exact .inr (countsOneOperation_of_consume hl rfl)
  all_goals exact .inr (countsOneOperation_self _)

theorem exec_timerExpire_cases {s t : State} (h : exec .timerExpire s = .next t) : t = s ∨ t = timerExpire s := by
  change execTimerExpire s = .next t at h
  unfold execTimerExpire at h
  split at h
  · exact .inr (by injection h with h; exact h.symm)
  · exact .inl (by injection h with h; exact h.symm)

theorem timerExpire_ne (s : State) : timerExpire s ≠ s := by
  intro h
  have ht : s.timeouts + 1 = s.timeouts := congrArg State.timeouts h
  simp at ht

/-- What every instruction does to the link ports and the counters; only a TIMER_EXPIRE that is taken counts a
timeout. -/
theorem exec_ports_cases {i : Instr} {s t : State} (h : exec i s = .next t) :
    StartsCounting s t ∨ CountsOneOperation s t (if i = .timerExpire ∧ t ≠ s then 1 else 0) := by
  by_cases hi : i = .timerExpire
  · subst hi
    rcases exec_timerExpire_cases h with rfl | rfl
    · simpa using .inr (countsOneOperation_self _)
    · rw [if_pos ⟨rfl, timerExpire_ne s⟩]
      exact .inr ⟨[], [], by simp, by simp, counts_timerExpire s⟩
  · rw [if_neg fun hc => hi hc.1]
    exact (exec_effect h).ports_cases hi

/-! ## The timer (R30, R182) -/

/-- TICK_COUNT is enabled only while the timer is armed and above 1 (R99, R176). -/
theorem classifyTick_tickCount {s : State} (h : classifyTick s = .tickCount) :
    s.tmrAct = true ∧ 1 < s.tmrCnt.toNat := by
  unfold classifyTick at h
  split at h
  · next hrun =>
    obtain ⟨-, hact, -⟩ := hrun
    split at h
    · cases h
    · next hcnt => exact ⟨hact, Nat.not_le.1 hcnt⟩
  · cases h

theorem toNat_sub_one_add_one {c : Word} (h : 1 < c.toNat) : (c - 1).toNat + 1 = c.toNat := by
  bv_omega

/-- How an instruction may change the timer. -/
abbrev TimerMove (i : Instr) (s t : State) : Prop :=
  (t.tmrAct = s.tmrAct ∧ t.tmrCnt = s.tmrCnt) ∨
    (t.tmrAct = false ∧ t.tmrCnt = 0 ∧ t.lastOp ∈ [0x01, 0x03, 0x11, 0x14]) ∨
    (t.tmrAct = true ∧ t.tmrCnt = s.rto ∧
      (i = .ackAccept ∧ t.txBase ≠ t.txNext ∨ i = .txSend ∧ s.txBase = s.txNext)) ∨
    (i = .tickCount ∧ t.tmrAct = true ∧ 1 < s.tmrCnt.toNat ∧ t.tmrCnt.toNat + 1 = s.tmrCnt.toNat)

theorem timerMove_txStart (i : Instr) (s u : State) : TimerMove i s (txStart u) := by
  obtain ⟨_, _, _, h, -⟩ := txStart_form u
  rw [h]
  exact .inr (.inl ⟨rfl, rfl, by simp⟩)

theorem timerMove_ackAccept (s : State) : TimerMove .ackAccept s (ackAccept (consume s)) := by
  obtain ⟨_, _, _, _, _, _, _, h, -, htimer⟩ := ackAccept_form (consume s)
  rw [h]
  rcases htimer with ⟨hact, hcnt⟩ | ⟨hact, hcnt, hne⟩
  · exact .inr (.inl ⟨hact, hcnt, by simp⟩)
  · exact .inr (.inr (.inl ⟨hact, hcnt, .inl ⟨rfl, hne⟩⟩))

theorem timerMove_sendFrame (f : Frame) (s : State) : TimerMove .txSend s (sendFrame f s) := by
  obtain ⟨_, _, h, htimer⟩ := sendFrame_form f s
  rw [h]
  rcases htimer with ⟨hempty, hact, hcnt⟩ | hkept
  · exact .inr (.inr (.inl ⟨hact, hcnt, .inr ⟨rfl, hempty⟩⟩))
  · exact .inl hkept

theorem append_timer (payload : List Byte) (s : State) :
    (append payload s).tmrAct = s.tmrAct ∧ (append payload s).tmrCnt = s.tmrCnt := by
  obtain ⟨_, _, _, _, h, -⟩ := append_form payload s
  rw [h]
  exact ⟨rfl, rfl⟩

theorem Effect.timerMove {i : Instr} {s t : State} (h : Effect i s t) : TimerMove i s t := by
  cases h
  case txStart => exact timerMove_txStart _ _ _
  case close | timerExpire => exact .inr (.inl ⟨rfl, rfl, by simp [commandClose, Machine.timerExpire]⟩)
  case ackAccept => exact timerMove_ackAccept _
  case txSend => exact timerMove_sendFrame _ _
  case tickCount hc =>
    obtain ⟨hact, hcnt⟩ := classifyTick_tickCount hc
    exact .inr (.inr (.inr ⟨rfl, hact, hcnt, toNat_sub_one_add_one hcnt⟩))
  case rxAccept => exact .inl (append_timer _ (consume s))
  all_goals exact .inl ⟨rfl, rfl⟩

/-! ## The receiver's acks (R39, R212, R213) -/

/-- The stored last ack acknowledges the packet before RX_EXPECTED. -/
theorem State.Inv.frameAck_la {s : State} (h : s.Inv) (hp : s.phase = .receiving) {a : Frame} (ha : s.la = some a) :
    frameAck a = s.rxExpected - 1 := by
  obtain ⟨-, -, -, -, -, -, ⟨-, -, -, hla⟩, -⟩ := h
  simpa [ha] using hla hp

theorem seqInc_sub_one (e : Byte) : seqInc e - 1 = e := by
  simp [seqInc]

theorem Effect.emits_lastInOrderAck {i : Instr} {s t : State} (h : Effect i s t) (hinv : s.Inv)
    (hp : s.phase = .receiving) :
    t.linkOut = s.linkOut ∨ ∃ a, t.linkOut = s.linkOut ++ [a] ∧ frameAck a = t.rxExpected - 1 := by
  cases h
  case txSend he _ =>
    obtain ⟨hsending, -⟩ := (State.txSendEnabled_iff s).1 he
    rw [hp] at hsending
    cases hsending
  case rxAccept f _ _ _ =>
    refine .inr ⟨ackFrame s s.rxExpected, ?_, ?_⟩
    · exact congrArg Ports.linkOut (emit_append_ports (ackFrame s s.rxExpected) (framePayload f) (consume s))
    · exact (frameAck_ackFrame _ _).trans (seqInc_sub_one _).symm
  case rxDupack a _ _ ha => exact .inr ⟨a, rfl, hinv.frameAck_la hp ha⟩
  case txStart => exact .inl (congrArg Ports.linkOut (txStart_ports _) :)
  case ackAccept => exact .inl (congrArg Ports.linkOut (ackAccept_ports _) :)
  all_goals exact .inl rfl

/-! ## The register window after a reset (R49) -/

/-- The offset of a register (R49). -/
def Reg.offset : Reg → BitVec 16
  | .ctrl => 0x000
  | .cmd => 0x004
  | .status => 0x008
  | .irqStatus => 0x00C
  | .irqEnable => 0x010
  | .hdrCfg => 0x014
  | .ackFill => 0x018
  | .rto => 0x01C
  | .timerCount => 0x020
  | .txLen => 0x024
  | .txTotal => 0x028
  | .txBase => 0x02C
  | .txNext => 0x030
  | .txRflag => 0x034
  | .rxExpected => 0x038
  | .rxLen => 0x03C
  | .rxLastack => 0x040
  | .txFrames => 0x044
  | .rxFrames => 0x048
  | .timeouts => 0x04C

theorem regAt_eq_some_iff (off : BitVec 16) (r : Reg) : regAt off = some r ↔ off = r.offset := by
  constructor
  · intro h
    unfold regAt at h
    split at h <;> cases h
    all_goals next e => exact BitVec.eq_of_toNat_eq e
  · rintro rfl
    cases r <;> rfl

theorem exec_regRead {off : BitVec 16} (h : off.toNat % 4 = 0) (s : State) :
    exec (.regRead off) s = .next (respond (.readDone (regValueAt s off)) s) := by
  have hal : aligned 2 off = true := by simpa [aligned] using h
  exact if_pos hal

/-- What the window reads after a reset (R49): only STATUS, HDR_CFG and RTO are not 0. -/
def resetValueAt (off : BitVec 16) : Word :=
  if off = 0x008 then 0x0000FF00 else if off = 0x014 then 0x08070000
  else if off = 0x01C then 0x00002710 else 0x00000000

theorem resetValueAt_of_reserved {off : BitVec 16} (h : regAt off = none) : resetValueAt off = 0 := by
  have hne (r : Reg) : off ≠ r.offset := fun e => by
    rw [(regAt_eq_some_iff off r).2 e] at h
    cases h
  have hstatus : off ≠ 0x008 := hne .status
  have hhdrCfg : off ≠ 0x014 := hne .hdrCfg
  have hrto : off ≠ 0x01C := hne .rto
  rw [resetValueAt, if_neg hstatus, if_neg hhdrCfg, if_neg hrto]

theorem statusWord_applyReset (s : State) : statusWord (applyReset s) = 0x0000FF00 := by
  simp [statusWord, State.reset, Phase.code]

theorem regValueAt_applyReset (s : State) (off : BitVec 16) : regValueAt (applyReset s) off = resetValueAt off := by
  unfold regValueAt
  cases h : regAt off with
  | none => exact (resetValueAt_of_reserved h).symm
  | some r =>
    obtain rfl := (regAt_eq_some_iff off r).1 h
    cases r with
    | status => exact statusWord_applyReset s
    | _ => rfl

theorem exec_regRead_applyReset {off : BitVec 16} (h : off.toNat % 4 = 0) (s : State) :
    exec (.regRead off) (applyReset s) = .next { applyReset s with resp := .readDone (resetValueAt off) } := by
  rw [exec_regRead h, regValueAt_applyReset]
  rfl

/-! ## The irq level (R47) -/

theorem and_ne_zero_iff {n : Nat} (a b : BitVec n) :
    a &&& b ≠ 0 ↔ ∃ k < n, a.getLsbD k = true ∧ b.getLsbD k = true := by
  constructor
  · intro hne
    by_contra hno
    push Not at hno
    refine hne (BitVec.eq_of_getLsbD_eq fun k hk => ?_)
    simpa using hno k hk
  · rintro ⟨k, -, ha, hb⟩ hzero
    simpa [ha, hb] using congrArg (BitVec.getLsbD · k) hzero

theorem State.irq_iff (s : State) :
    s.irq = true ↔ ∃ k < 8, s.irqStatus.getLsbD k = true ∧ s.irqEnable.getLsbD k = true := by
  rw [← and_ne_zero_iff, State.irq, bne_iff_ne]

theorem applyReset_irq (s : State) : (applyReset s).irq = false := by
  simp [State.irq, State.reset]

end Sys2Proof.Machine

namespace Sys2Proof.Proofs

open Sys2Proof Sys2Proof.Machine

/-- Settles O15, by the register an offset stands for. -/
theorem afterResetEveryOffsetReadsItsMapValue : Obligations.AfterResetEveryOffsetReadsItsMapValue :=
  fun s _ hal => exec_regRead_applyReset hal s

/-- Settles O51: the level is a bitwise "and", and reset clears both of its operands. -/
theorem irqIsTheEnabledEvents : Obligations.IrqIsTheEnabledEvents :=
  ⟨State.irq_iff, applyReset_irq, applyReset_irq State.reset⟩

/-- Settles O45, by the case analysis of what an instruction can do to STATE. -/
theorem onlyTheNamedOperationsWriteState : Obligations.OnlyTheNamedOperationsWriteState :=
  fun _ _ _ hw h hne => ((exec_effect h).phase_eq_or_writesState hw).resolve_left hne

/-- Settles O48, by the case analysis of what an instruction can do to each buffer. -/
theorem buffersAreWrittenOnlyByTheirWriters : Obligations.BuffersAreWrittenOnlyByTheirWriters :=
  fun _ _ _ h => ⟨(exec_effect h).txbuf_eq_or_write.resolve_left, (exec_effect h).rxbuf_eq_or_rxAccept.resolve_left⟩

/-- Settles O49: raising an event keeps every bit, and the host's write clears only the bits it names. -/
theorem eventBitsStayUntilTheHostClearsThem : Obligations.EventBitsStayUntilTheHostClearsThem := by
  intro i s t k h hk hset hclr
  rcases (exec_effect h).events_cases with hraise | ⟨w, hi, hirq, -⟩
  · rw [hraise.keeps_bit hset] at hclr
    cases hclr
  · exact ⟨w, hi, bit_of_cleared hk hset (hirq ▸ hclr)⟩

/-- Settles O53, by the case analysis of what an instruction can do to the link ports. -/
theorem countersCountFramesAndTimeouts : Obligations.CountersCountFramesAndTimeouts := by
  intro i s t h
  rcases exec_ports_cases h with ⟨hports, hop⟩ | ⟨sent, got, hsent, hgot, hc⟩
  · exact .inl ⟨congrArg Ports.txFrames hports, congrArg Ports.rxFrames hports, congrArg Ports.timeouts hports,
      congrArg Ports.linkIn hports, congrArg Ports.linkOut hports, hop⟩
  · exact .inr ⟨sent, got, hc.linkOut, hc.linkIn, hsent, hgot, hc.txFrames, hc.rxFrames, hc.timeouts⟩

/-- Settles O54, by the case analysis of what an instruction can do to the timer. -/
theorem timerChangesAsTheSummarySays : Obligations.TimerChangesAsTheSummarySays :=
  fun _ _ _ h => (exec_effect h).timerMove

/-- Settles O55: RX_ACCEPT acknowledges the packet it has just passed, and RX_DUPACK resends an ack of which the
invariant says the same. -/
theorem theReceiverAcknowledgesTheLastInOrderPacket : Obligations.TheReceiverAcknowledgesTheLastInOrderPacket :=
  fun _ _ _ hinv hp h => (exec_effect h).emits_lastInOrderAck hinv hp

end Sys2Proof.Proofs
end

section
/-! The accesses of spec/20_memory.md: which descriptors are bus errors (R64, R67, R68), what a buffer access answers in
and past its buffer (R69, R81), that a read has no side effect (R65, R71), when an operation is not taken (R77), the
LINK agent's steps (R76, R77), where the window stands (R61), and everything that can stop a step. -/

namespace Sys2Proof

/-! ## Illegal descriptors (R64, R67, R68, R246) -/

@[simp] theorem offsetOf_window (win : BitVec 2) (o : BitVec 16) : (offsetOf win o).extractLsb' 16 2 = win :=
  BitVec.extractLsb'_append_eq_left

@[simp] theorem offsetOf_low (win : BitVec 2) (o : BitVec 16) : (offsetOf win o).extractLsb' 0 16 = o :=
  BitVec.extractLsb'_append_eq_right

theorem aligned_offsetOf {k : Nat} (hk : k ≤ 16) (win : BitVec 2) (o : BitVec 16) :
    aligned k (offsetOf win o) = aligned k o := by
  rw [← aligned_extract hk, offsetOf_low]

/-- What makes an access of offset `o` of window `win` legal whatever the buffers' sizes are. -/
theorem of_legalAccess_offsetOf {we : Bool} {sz win : BitVec 2} {o : BitVec 16}
    (h : legalAccess we sz (offsetOf win o) = true) :
    sz ≠ 3 ∧ win ≠ 3 ∧ (win = 0 → sz = 2) ∧ o.toNat % 2 ^ sz.toNat = 0 ∧ (win = 2 → we = false) := by
  unfold legalAccess at h
  rw [offsetOf_window, aligned_offsetOf (by omega), aligned_offsetOf (by omega)] at h
  simp only [aligned] at h
  split at h
  · next hw =>
    obtain rfl : win = 0 := BitVec.eq_of_toNat_eq hw
    obtain ⟨hsz, hal⟩ : sz = 2 ∧ o.toNat % 2 ^ 2 = 0 := by simpa using h
    subst hsz
    exact ⟨by decide, by decide, fun _ => rfl, hal, by simp⟩
  · next hw =>
    obtain rfl : win = 1 := BitVec.eq_of_toNat_eq hw
    obtain ⟨hsz, hal⟩ : sz ≠ 3 ∧ o.toNat % 2 ^ sz.toNat = 0 := by simpa using h
    exact ⟨hsz, by decide, by simp, hal, by simp⟩
  · next hw =>
    obtain rfl : win = 2 := BitVec.eq_of_toNat_eq hw
    obtain ⟨⟨hwe, hsz⟩, hal⟩ : (we = false ∧ sz ≠ 3) ∧ o.toNat % 2 ^ sz.toNat = 0 := by simpa using h
    exact ⟨hsz, by decide, by simp, hal, fun _ => hwe⟩
  · cases h

/-- An illegal access is BUS_ERROR with its own fields, whatever the write data (R97, R246). -/
theorem decode_hreq_of_illegal {we : Bool} {sz : BitVec 2} {off : BitVec 18} (h : legalAccess we sz off = false)
    (w : Word) : decode (.hreq (hreqOf we sz off) w) = .ok (.busError we sz off) := by
  obtain ⟨hwe, hsz, hoff⟩ := hreq_fields we sz off
  have hnone := hreqRows_find_illegal h
  rw [← hreqRows_find_append, ← hreqOf_offsetOf, offsetOf_extract] at hnone
  rw [decode, decodeHreq, hnone]
  simp only [hwe, hsz, hoff]

end Sys2Proof

namespace Sys2Proof.Machine

open Sys2Proof.Claims

/-! ## Buffer accesses (R65, R69, R81) -/

section Rows

variable {i : Instr} {n : Nat} {o : BitVec 16} {w : Word}

theorem exec_txbufRd (h : (i, n) ∈ [(Instr.txbufRd8 o, 1), (Instr.txbufRd16 o, 2), (Instr.txbufRd32 o, 4)])
    (s : State) : exec i s = txbufRead n o s := by
  simp only [List.mem_cons, Prod.mk.injEq, List.not_mem_nil, or_false] at h
  obtain ⟨rfl, rfl⟩ | ⟨rfl, rfl⟩ | ⟨rfl, rfl⟩ := h
  all_goals rfl

theorem exec_rxbufRd (h : (i, n) ∈ [(Instr.rxbufRd8 o, 1), (Instr.rxbufRd16 o, 2), (Instr.rxbufRd32 o, 4)])
    (s : State) : exec i s = rxbufRead n o s := by
  simp only [List.mem_cons, Prod.mk.injEq, List.not_mem_nil, or_false] at h
  obtain ⟨rfl, rfl⟩ | ⟨rfl, rfl⟩ | ⟨rfl, rfl⟩ := h
  all_goals rfl

theorem exec_txbufWr (h : (i, n) ∈ [(Instr.txbufWr8 o w, 1), (Instr.txbufWr16 o w, 2), (Instr.txbufWr32 o w, 4)])
    (s : State) : exec i s = txbufWrite n o w s := by
  simp only [List.mem_cons, Prod.mk.injEq, List.not_mem_nil, or_false] at h
  obtain ⟨rfl, rfl⟩ | ⟨rfl, rfl⟩ | ⟨rfl, rfl⟩ := h
  all_goals rfl

end Rows

theorem inBuffer_iff (o : BitVec 16) (n limit : Nat) :
    inBuffer o n limit = true ↔ o.toNat % n = 0 ∧ o.toNat + n ≤ limit := by
  simp [inBuffer]

theorem not_inBuffer_of_pastEnd {o : BitVec 16} {n limit : Nat} (h : limit < o.toNat + n) :
    ¬ inBuffer o n limit = true :=
  fun hin => Nat.not_le.2 h ((inBuffer_iff o n limit).1 hin).2

theorem bufferRead_of_pastEnd (space : Space) (m : Memory) {limit : Nat} {o : BitVec 16} {n : Nat}
    (h : limit < o.toNat + n) (s : State) :
    bufferRead space m limit o n s = .next (respond (.readError 0) s) :=
  if_neg (not_inBuffer_of_pastEnd h)

theorem txbufWrite_of_pastEnd {o : BitVec 16} {n : Nat} {s : State} (h : s.params.txbufBytes < o.toNat + n)
    (w : Word) : txbufWrite n o w s = .next (respond .writeError s) :=
  if_neg (not_inBuffer_of_pastEnd h)

/-- A read of several bytes faults at the first that holds no value. -/
theorem readBytes_of_first_unwritten (space : Space) {m : Memory} {off n k : Nat} (hk : k < n)
    (hsome : ∀ j < k, (Memory.read m (off + j)).isSome = true) (hnone : Memory.read m (off + k) = none) :
    readBytes space m off n = .error (.unwrittenBufferRead space (off + k)) := by
  cases h : readBytes space m off n with
  | ok bs =>
    obtain ⟨hlen, hread⟩ := (readBytes_ok_iff space m off n bs).1 h
    have : n ≤ k := by simpa [hnone, hlen] using (hread k hk).symm
    omega
  | error f =>
    obtain ⟨k', -, rfl, hnone', hsome'⟩ := readBytes_error h
    have hge : ¬ k' < k := fun hlt => by simpa [hnone'] using hsome k' hlt
    have hle : ¬ k < k' := fun hlt => by simpa [hnone] using hsome' k hlt
    rw [show k' = k by omega]

theorem bufferRead_of_first_unwritten (space : Space) {m : Memory} {limit : Nat} {o : BitVec 16} {n k : Nat}
    (hal : o.toNat % n = 0) (hend : o.toNat + n ≤ limit) (hk : k < n)
    (hsome : ∀ j < k, (Memory.read m (o.toNat + j)).isSome = true) (hnone : Memory.read m (o.toNat + k) = none)
    (s : State) : bufferRead space m limit o n s = .fault (.unwrittenBufferRead space (o.toNat + k)) := by
  rw [bufferRead, if_pos ((inBuffer_iff o n limit).2 ⟨hal, hend⟩), readBytes_of_first_unwritten space hk hsome hnone]

theorem bufferRead_next {space : Space} {m : Memory} {limit : Nat} {o : BitVec 16} {n : Nat} {s t : State}
    (h : bufferRead space m limit o n s = .next t) : ∃ r, t = respond r s := by
  obtain ⟨r, hr⟩ | ⟨a, ha⟩ := bufferRead_cases space m limit o n s
  · exact ⟨r, by injection h.symm.trans hr⟩
  · cases h.symm.trans ha

theorem execRegRead_next {off : BitVec 16} {s t : State} (h : execRegRead off s = .next t) :
    ∃ r, t = respond r s := by
  unfold execRegRead at h
  split at h
  all_goals
    injection h with h
    exact ⟨_, h.symm⟩

/-- A host read answers the host and does nothing else (R65, R71). -/
theorem exec_hostRead_next {i : Instr} {o : BitVec 16} {s t : State}
    (hi : i ∈ [Instr.regRead o, .txbufRd8 o, .txbufRd16 o, .txbufRd32 o, .rxbufRd8 o, .rxbufRd16 o, .rxbufRd32 o])
    (h : exec i s = .next t) : ∃ r, t = respond r s := by
  simp only [List.mem_cons, List.not_mem_nil, or_false] at hi
  obtain rfl | rfl | rfl | rfl | rfl | rfl | rfl := hi
  · exact execRegRead_next h
  all_goals exact bufferRead_next h

/-! ## TX_SEND's read (R158, R159, R172) -/

theorem fragOff_toNat (i : BitVec 16) : (fragOff i).toNat = 64 * i.toNat % 65536 := by
  rw [fragOff, BitVec.toNat_shiftLeft, Nat.shiftLeft_eq, Nat.mul_comm]

theorem execTxSend_of_enabled {s : State} (h : MaySend s) : execTxSend s = txSend s :=
  if_pos ((State.txSendEnabled_iff s).2 h)

theorem txSend_of_readBytes_error {s : State} {f : Fault}
    (h : readBytes .txbuf s.txbuf (fragOff s.txNext).toNat (fragLen s.txLen s.txNext) = .error f) :
    txSend s = .fault f := by
  rw [txSend, h]

/-! ## Operations that are not taken (R77, R99) -/

theorem classifyTick_eq_tickCount_iff (s : State) :
    classifyTick s = .tickCount ↔ TimerRuns s ∧ 1 < s.tmrCnt.toNat := by
  unfold classifyTick
  split_ifs with hrun hcnt
  · simp [hcnt]
  · exact iff_of_true rfl ⟨hrun, Nat.not_le.1 hcnt⟩
  · simp [hrun]

theorem classifyTick_eq_timerExpire_iff (s : State) :
    classifyTick s = .timerExpire ↔ TimerRuns s ∧ s.tmrCnt.toNat ≤ 1 := by
  unfold classifyTick
  split_ifs with hrun hcnt
  · exact iff_of_true rfl ⟨hrun, hcnt⟩
  · simp [hcnt]
  · simp [hrun]

theorem onHeadFrame_of_held {i : Instr} {s : State} (effect : Frame → State → Result)
    (h : ∀ f rest, s.linkIn = f :: rest → classifyFrame s f = i → needsReady i = true ∧ s.ready = false) :
    onHeadFrame i effect s = .next s := by
  obtain ⟨f, rest, hl, hc, hready, -⟩ | ⟨-, heq⟩ := onHeadFrame_cases i effect s
  · obtain ⟨hneeds, hheld⟩ := h f rest hl hc
    rw [hready hneeds] at hheld
    cases hheld
  · exact heq

/-- An operation on the head frame that is not enabled, or that link-out holds, is not taken (R77, R99). -/
theorem exec_frameOperation_of_held {i : Instr} {s : State}
    (hi : i ∈ [Instr.ackAccept, .ackIgnore, .sndPeerClosed, .rxAccept, .rxDupack, .rxPeerClose, .frameShort,
      .frameOversize, .frameStray])
    (h : ∀ f rest, s.linkIn = f :: rest → classifyFrame s f = i → needsReady i = true ∧ s.ready = false) :
    exec i s = .next s := by
  simp only [List.mem_cons, List.not_mem_nil, or_false] at hi
  obtain rfl | rfl | rfl | rfl | rfl | rfl | rfl | rfl | rfl := hi
  all_goals
    rw [exec]
    exact onHeadFrame_of_held _ h

/-! ## The window on the platform's bus (R61) -/

theorem windowOffset_of_mem {addr : Nat} (h : Config.pBase ≤ addr ∧ addr < Config.pBase + 2 ^ 18) :
    windowOffset addr = some (BitVec.ofNat 18 (addr - Config.pBase)) :=
  if_pos h

theorem windowOffset_of_not_mem {addr : Nat} (h : ¬ (Config.pBase ≤ addr ∧ addr < Config.pBase + 2 ^ 18)) :
    windowOffset addr = none :=
  if_neg h

/-! ## Everything that can stop a step (R81, R98, R213, R277) -/

/-- The buffer of a space. -/
def State.buffer (s : State) : Space → Memory
  | .txbuf => s.txbuf
  | .rxbuf => s.rxbuf

/-- An outcome reached from `s`: if it stops, then for a byte that holds no value, or for a resend with LA NONE while
RECEIVING. -/
def StopsOnly (s : State) : Result → Prop
  | .next _ => True
  | .fault (.unwrittenBufferRead space a) => Memory.read (s.buffer space) a = none
  | .fault .lastAckMissing => s.phase = .receiving ∧ s.la = none
  | .refused _ => False

theorem not_stopsOnly_refused (s : State) (r : Refusal) : ¬ StopsOnly s (.refused r) := id

theorem stopsOnly_ite {s : State} {c : Prop} [Decidable c] {a b : Result} (ha : StopsOnly s a)
    (hb : StopsOnly s b) : StopsOnly s (if c then a else b) := by
  split
  · exact ha
  · exact hb

theorem stopsOnly_withAck (s u : State) (n : Byte) (next : Frame → State) :
    StopsOnly s (withEncoded (ackPacket u n) fun a => .next (next a)) := by
  rw [withEncoded_ackPacket]
  trivial

theorem runCommand_stopsOnly (w : Word) (s u : State) : StopsOnly s (runCommand w u) := by
  unfold runCommand
  split
  · trivial
  · exact stopsOnly_ite trivial trivial
  · exact stopsOnly_ite (stopsOnly_withAck s u _ _) trivial
  · trivial
  · trivial

theorem writeReg_stopsOnly (r : Reg) (w : Word) (s u : State) : StopsOnly s (writeReg r w u) := by
  cases r with
  | cmd => exact runCommand_stopsOnly w s u
  | _ => trivial

theorem execRegWrite_stopsOnly (off : BitVec 16) (w : Word) (s : State) : StopsOnly s (execRegWrite off w s) := by
  refine stopsOnly_ite ?_ trivial
  split
  · exact writeReg_stopsOnly _ w s _
  · trivial

theorem readBytes_error_stopsOnly {space : Space} {s : State} {off n : Nat} {f : Fault}
    (h : readBytes space (s.buffer space) off n = .error f) : StopsOnly s (.fault f) := by
  obtain ⟨k, -, rfl, hnone, -⟩ := readBytes_error h
  exact hnone

theorem bufferRead_stopsOnly (space : Space) (limit : Nat) (o : BitVec 16) (n : Nat) (s : State) :
    StopsOnly s (bufferRead space (s.buffer space) limit o n s) := by
  refine stopsOnly_ite ?_ trivial
  split
  · trivial
  · next f hf => exact readBytes_error_stopsOnly hf

theorem txbufWrite_stopsOnly (n : Nat) (o : BitVec 16) (w : Word) (s : State) : StopsOnly s (txbufWrite n o w s) :=
  stopsOnly_ite trivial trivial

/-- A fragment has at most 64 bytes, so TX_SEND's Encode is never refused (R130, R158). -/
theorem txSend_stopsOnly (s : State) : StopsOnly s (txSend s) := by
  unfold txSend
  split
  · next f hf => exact readBytes_error_stopsOnly (space := .txbuf) hf
  · next payload hread =>
    have hlen : payload.length ≤ 64 := by
      rw [((readBytes_ok_iff _ _ _ _ _).1 hread).1]
      exact Nat.min_le_left _ _
    rw [withEncoded_ok (p := dataPacket s s.txNext payload) _ hlen]
    trivial

theorem onHeadFrame_stopsOnly {i : Instr} {effect : Frame → State → Result} {s : State}
    (h : ∀ f, classifyFrame s f = i → StopsOnly s (effect f (consume s))) : StopsOnly s (onHeadFrame i effect s) := by
  obtain ⟨f, rest, -, hc, -, heq⟩ | ⟨-, heq⟩ := onHeadFrame_cases i effect s
  · rw [heq]
    exact h f hc
  · rw [heq]
    trivial

theorem execRxDupack_stopsOnly (s : State) : StopsOnly s (execRxDupack s) := by
  refine onHeadFrame_stopsOnly fun f hc => ?_
  obtain ⟨hp, -, -⟩ := classifyFrame_rxDupack hc
  unfold rxDupack
  split
  · trivial
  · next hla => exact ⟨hp, hla⟩

/-- Everything that can stop an instruction. -/
theorem exec_stopsOnly (i : Instr) (s : State) : StopsOnly s (exec i s) := by
  cases i with
  | cmdNop => exact runCommand_stopsOnly 0 s _
  | cmdTxStart => exact runCommand_stopsOnly 1 s _
  | cmdRxStart => exact runCommand_stopsOnly 2 s _
  | cmdClose => exact runCommand_stopsOnly 3 s _
  | cmdIllegal w => exact runCommand_stopsOnly w s _
  | nop | close | illegalCmd | tickIdle | busError => trivial
  | txStart | tickCount | timerExpire | regRead => exact stopsOnly_ite trivial trivial
  | rxStart => exact stopsOnly_ite (stopsOnly_withAck s _ _ _) trivial
  | txSend => exact stopsOnly_ite (txSend_stopsOnly s) trivial
  | ackAccept | ackIgnore | sndPeerClosed | rxPeerClose | frameShort | frameOversize | frameStray =>
    rw [exec]
    exact onHeadFrame_stopsOnly fun _ _ => trivial
  | rxAccept => exact onHeadFrame_stopsOnly fun _ _ => stopsOnly_withAck s _ _ _
  | rxDupack => exact execRxDupack_stopsOnly s
  | regWrite off w => exact execRegWrite_stopsOnly off w s
  | txbufRd8 o | txbufRd16 o | txbufRd32 o => exact bufferRead_stopsOnly .txbuf _ o _ s
  | rxbufRd8 o | rxbufRd16 o | rxbufRd32 o => exact bufferRead_stopsOnly .rxbuf _ o _ s
  | txbufWr8 o w | txbufWr16 o w | txbufWr32 o w => exact txbufWrite_stopsOnly _ o w s

theorem engineTurn_stopsOnly (s : State) : StopsOnly s (engineTurn s) := by
  obtain heq | ⟨i, k, heq⟩ := engineTurn_cases s
  · rw [heq]
    trivial
  · rw [heq]
    exact exec_stopsOnly i { s with choiceIdx := k }

/-- A turn stops as an instruction does, or is an input that does not decode (R98). -/
theorem runTurn_stopsOnly_or_undecodable (turn : Turn) (s : State) :
    StopsOnly s (runTurn turn s) ∨
      ∃ r e, turn = .input r ∧ decode r = .error e ∧ runTurn turn s = .refused (.undecodable e) := by
  cases turn with
  | input r =>
    cases hd : decode r with
    | ok i =>
      rw [runTurn, inputTurn_of_decode hd]
      exact .inl (exec_stopsOnly i s)
    | error e => exact .inr ⟨r, e, rfl, hd, by rw [runTurn, inputTurn, hd]⟩
  | tick => exact .inl (exec_stopsOnly _ s)
  | engine => exact .inl (engineTurn_stopsOnly s)
  | deliver | take | drop | setReady | reset => exact .inl trivial

/-- Everything that can stop a step. -/
theorem step_stopsOnly_or_undecodable (s : State) :
    StopsOnly s (step s) ∨
      ∃ r rest e, s.agenda = .input r :: rest ∧ decode r = .error e ∧ step s = .refused (.undecodable e) := by
  cases ha : s.agenda with
  | nil => exact .inl (step_nil ha ▸ engineTurn_stopsOnly s)
  | cons turn rest =>
    rw [step_cons ha]
    obtain h | ⟨r, e, rfl, hd, heq⟩ := runTurn_stopsOnly_or_undecodable turn { s with agenda := rest }
    · exact .inl h
    · exact .inr ⟨r, rest, e, rfl, hd, heq⟩

theorem State.Inv.la_ne_none {s : State} (h : s.Inv) (hp : s.phase = .receiving) : s.la ≠ none := by
  obtain ⟨-, -, -, -, -, -, ⟨-, -, -, hla⟩, -⟩ := h
  intro hnone
  simpa [hnone] using hla hp

/-- From the invariant a fault names a byte that holds no value. -/
theorem State.Inv.fault_names_unwritten {s : State} (hinv : s.Inv) {f : Fault} (h : StopsOnly s (.fault f)) :
    (∃ a, f = .unwrittenBufferRead .txbuf a ∧ Memory.read s.txbuf a = none) ∨
      (∃ a, f = .unwrittenBufferRead .rxbuf a ∧ Memory.read s.rxbuf a = none) := by
  match f, h with
  | .unwrittenBufferRead .txbuf a, hnone => exact .inl ⟨a, rfl, hnone⟩
  | .unwrittenBufferRead .rxbuf a, hnone => exact .inr ⟨a, rfl, hnone⟩
  | .lastAckMissing, ⟨hp, hla⟩ => exact absurd hla (hinv.la_ne_none hp)

end Sys2Proof.Machine

namespace Sys2Proof.Proofs

open Sys2Proof Sys2Proof.Machine Sys2Proof.Claims

/-- Settles O6: each of the five conditions breaks one that a legal access meets, and no row takes an illegal one. -/
theorem illegalAccessesDecodeToBusError : Obligations.IllegalAccessesDecodeToBusError := by
  intro we sz win o w hbad
  refine decode_hreq_of_illegal (Bool.eq_false_iff.2 fun hlegal => ?_) w
  obtain ⟨hsz, hwin, hreg, hal, hrx⟩ := of_legalAccess_offsetOf hlegal
  rcases hbad with h | h | ⟨h, hnarrow⟩ | h | ⟨h, hwrite⟩
  · exact hsz h
  · exact hwin h
  · exact hnarrow (hreg h)
  · exact h hal
  · cases hwrite.symm.trans (hrx h)

/-- Settles O43: of the three faults the invariant excludes the missing last ack, and the only refusal is that of an
input that does not decode. -/
theorem stepsStopOnlyForUnwrittenBytesOrUnlistedInputs :
    Obligations.StepsStopOnlyForUnwrittenBytesOrUnlistedInputs := by
  intro s hinv
  obtain hstop | ⟨input, rest, e, ha, hd, heq⟩ := step_stopsOnly_or_undecodable s
  · exact ⟨fun f h => hinv.fault_names_unwritten (h ▸ hstop), fun r h => absurd (h ▸ hstop) (not_stopsOnly_refused s r)⟩
  · refine ⟨fun f h => (by cases heq.symm.trans h), fun r h => ?_⟩
    cases heq.symm.trans h
    exact ⟨e, input, rest, rfl, ha, hd⟩

/-- Settles O52: the next state of a read is the state before with a response. -/
theorem readsHaveNoSideEffect : Obligations.ReadsHaveNoSideEffect := by
  intro i s t o hi h
  obtain ⟨r, rfl⟩ := exec_hostRead_next hi h
  rfl

/-- Settles O13, by the meaning of each of the LINK agent's turns. -/
theorem linkStepsTouchOnlyTheirPort : Obligations.LinkStepsTouchOnlyTheirPort :=
  fun _ _ => ⟨fun _ => step_cons, step_cons, step_cons, fun _ => step_cons⟩

/-- Settles O28: an access past the end is not in its buffer. -/
theorem busErrorsChangeNothingButTheResponse : Obligations.BusErrorsChangeNothingButTheResponse := by
  refine fun s => ⟨fun _ _ => ⟨rfl, rfl⟩, ?_, ?_⟩
  · rintro o i n (⟨hi, hend⟩ | ⟨hi, hend⟩)
    · exact (exec_txbufRd hi s).trans (bufferRead_of_pastEnd _ _ hend s)
    · exact (exec_rxbufRd hi s).trans (bufferRead_of_pastEnd _ _ hend s)
  · intro o w i n hi hend
    exact (exec_txbufWr hi s).trans (txbufWrite_of_pastEnd hend w)

/-- Settles O29: the read of a run of bytes faults at the first that holds no value, and its caller hands the fault on. -/
theorem readingAByteWithNoValueFaults : Obligations.ReadingAByteWithNoValueFaults := by
  refine ⟨?_, ?_, ?_⟩
  · intro s o i n k hi hal hend hk hsome hnone
    exact (exec_txbufRd hi s).trans (bufferRead_of_first_unwritten _ hal hend hk hsome hnone s)
  · intro s o i n k hi hal hend hk hsome hnone
    exact (exec_rxbufRd hi s).trans (bufferRead_of_first_unwritten _ hal hend hk hsome hnone s)
  · intro s k hsend hk hsome hnone
    have hread := readBytes_of_first_unwritten .txbuf hk hsome hnone
    rw [show (fragmentAt s).1 = (fragOff s.txNext).toNat from (fragOff_toNat _).symm] at hread ⊢
    exact (execTxSend_of_enabled hsend).trans (txSend_of_readBytes_error hread)

/-- Settles O41: each operation's guard is the condition stated, and it holds the state where the guard fails. -/
theorem operationsNotEnabledAreNotTaken : Obligations.OperationsNotEnabledAreNotTaken := by
  intro s
  refine ⟨fun h => ?_, fun h => ?_, fun h => ?_, fun i hi h => ?_, fun h => ?_, fun h => ?_⟩
  · exact if_neg ((State.txSendEnabled_iff s).not.2 h)
  · exact if_neg ((classifyTick_eq_tickCount_iff s).not.2 h)
  · exact if_neg ((classifyTick_eq_timerExpire_iff s).not.2 h)
  · exact exec_frameOperation_of_held hi h
  · exact if_neg fun hmay => h (((State.mayStartTx_iff s).1 hmay).imp_left (State.stopped_iff s).1)
  · exact if_neg ((State.stopped_iff s).not.2 h)

/-- Settles O60: both bounds of the window are those of an 18-bit offset. -/
theorem theWindowStandsAtPBase : Obligations.TheWindowStandsAtPBase := by
  refine ⟨fun off => ?_, fun addr h => windowOffset_of_not_mem (by omega)⟩
  have hlt := off.isLt
  rw [windowOffset_of_mem (by omega), Nat.add_sub_cancel_left, BitVec.ofNat_toNat, BitVec.setWidth_eq]

end Sys2Proof.Proofs
end

section
/-! The encodings of spec/30_encoding.md: what each of the three decoders can answer (R95 to R98), from that the round
trips in both directions, and which operation a tick, a turn of the engine and a command's operation code run (R98,
R99, R181). -/

namespace Sys2Proof

/-! ## Command words (R95, R96) -/

theorem encode_decodeCmd (w : Word) : encode (decodeCmd w) = .cmd w := by
  unfold decodeCmd
  split
  case h_5 => rfl
  all_goals next hw => exact congrArg RawInput.cmd (BitVec.eq_of_toNat_eq hw.symm)

theorem decodeCmd_wf (w : Word) : (decodeCmd w).wf = true := by
  unfold decodeCmd
  split
  case h_5 _ h0 h1 h2 h3 =>
    have hne : w.toNat ≠ 0 ∧ w.toNat ≠ 1 ∧ w.toNat ≠ 2 ∧ w.toNat ≠ 3 := ⟨h0, h1, h2, h3⟩
    have hlarge : 3 < w.toNat := by omega
    exact decide_eq_true hlarge
  all_goals rfl

/-! ## Operation codes (R98) -/

theorem decodeOp_mem {c : Byte} {i : Instr} (h : decodeOp c = some i) : (c, i) ∈ opTable := by
  obtain ⟨row, hfind, rfl⟩ := Option.map_eq_some_iff.1 h
  have hcode : row.1 = c := beq_iff_eq.1 (List.find?_some (p := fun row : Byte × Instr => row.1 == c) hfind)
  exact hcode ▸ List.mem_of_find?_eq_some hfind

theorem opTable_encode : ∀ row ∈ opTable, encode row.2 = .op row.1 := by decide

theorem opTable_wf : ∀ row ∈ opTable, row.2.wf = true := by decide

theorem decode_op_mem {c : Byte} {i : Instr} (h : decode (.op c) = .ok i) : (c, i) ∈ opTable := by
  rw [decode] at h
  split at h
  · next hop =>
    cases h
    exact decodeOp_mem hop
  · cases h

/-! ## Host access descriptors (R97) -/

/-- Which descriptors a row takes, from their top five bits WE, SZ, OFF[17:16] and their offset in the window. -/
theorem HreqRow.hits_iff {r : HreqRow} (hr : r ∈ hreqRows) (h : BitVec 21) :
    r.hits h = true ↔
      h.extractLsb' 16 5 = r.pat.extractLsb' 16 5 ∧ h.extractLsb' 0 16 &&& r.mask.extractLsb' 0 16 = 0#16 := by
  have happ := HreqRow.hits_append hr (h.extractLsb' 16 5) (h.extractLsb' 0 16)
  rw [BitVec.extractLsb'_append_extractLsb'] at happ
  rw [happ, Bool.and_eq_true, beq_iff_eq, beq_iff_eq]

theorem HreqRow.eq_append_of_hits {r : HreqRow} {h : BitVec 21} (hr : r ∈ hreqRows) (hhit : r.hits h = true) :
    h = r.pat.extractLsb' 16 5 ++ h.extractLsb' 0 16 := by
  rw [← ((HreqRow.hits_iff hr h).1 hhit).1, BitVec.extractLsb'_append_extractLsb']

/-- No two rows of R97 agree in WE, SZ and the window. -/
theorem hreqRows_eq_of_top_eq :
    ∀ r ∈ hreqRows, ∀ r' ∈ hreqRows, r.pat.extractLsb' 16 5 = r'.pat.extractLsb' 16 5 → r = r' := by decide

/-- The rows' instructions are written back with the row's own top five bits, and with the write data where WE is 1. -/
theorem HreqRow.encode_instr_append {r : HreqRow} (hr : r ∈ hreqRows) (o : BitVec 16) (w : Word) :
    encode (r.kind.instr (r.pat.extractLsb' 16 5 ++ o) w) =
      .hreq (r.pat.extractLsb' 16 5 ++ o) (if hreqWe (r.pat.extractLsb' 16 5 ++ o) then w else 0) := by
  simp only [hreqRows, List.mem_cons, List.not_mem_nil, or_false] at hr
  rcases hr with rfl | rfl | rfl | rfl | rfl | rfl | rfl | rfl | rfl | rfl | rfl
  all_goals
    simp only [HreqKind.instr, extract_offset, encode, hreqOf_offsetOf, hreqWe, BitVec.getLsbD_append]
    rfl

theorem HreqRow.encode_instr {r : HreqRow} {h : BitVec 21} (hr : r ∈ hreqRows) (hhit : r.hits h = true) (w : Word) :
    encode (r.kind.instr h w) = .hreq h (if hreqWe h then w else 0) := by
  rw [HreqRow.eq_append_of_hits hr hhit]
  exact HreqRow.encode_instr_append hr _ w

/-- A row's mask of the offset is the alignment of its access (R64). -/
theorem HreqRow.instr_wf_iff {r : HreqRow} (hr : r ∈ hreqRows) (h : BitVec 21) (w : Word) :
    (r.kind.instr h w).wf = true ↔ h.extractLsb' 0 16 &&& r.mask.extractLsb' 0 16 = 0#16 := by
  simp only [hreqRows, List.mem_cons, List.not_mem_nil, or_false] at hr
  rcases hr with rfl | rfl | rfl | rfl | rfl | rfl | rfl | rfl | rfl | rfl | rfl
  all_goals simp [HreqKind.instr, Instr.wf, ← and_three_eq_zero_iff, ← and_one_eq_zero_iff]

/-- A legal access's WE, SZ and window are those of some row, which masks as many bits as SZ aligns. -/
theorem exists_hreqRow_of_top : ∀ (we : Bool) (sz win : BitVec 2),
    sz ≠ 3 → win ≠ 3 → (win = 0 → sz = 2) → (win = 2 → we = false) →
      ∃ r ∈ hreqRows, hreqTop we sz win = r.pat.extractLsb' 16 5 ∧
        r.mask.extractLsb' 0 16 = BitVec.ofNat 16 (2 ^ sz.toNat - 1) := by decide

theorem and_ofNat_two_pow_sub_one_eq_zero {o : BitVec 16} {k : Nat} (hk : k ≤ 16) (h : o.toNat % 2 ^ k = 0) :
    o &&& BitVec.ofNat 16 (2 ^ k - 1) = 0#16 := by
  have hlt : 2 ^ k - 1 < 2 ^ 16 := by
    have := Nat.pow_le_pow_right (n := 2) (by omega) hk
    omega
  rw [← BitVec.toNat_inj, BitVec.toNat_and, BitVec.toNat_ofNat, Nat.mod_eq_of_lt hlt,
    Nat.and_two_pow_sub_one_eq_mod, h]
  rfl

theorem hreqOf_fields (h : BitVec 21) : hreqOf (hreqWe h) (hreqSz h) (hreqOff h) = h := by
  apply BitVec.eq_of_getLsbD_eq
  intro i hi
  simp only [hreqOf, hreqWe, hreqSz, hreqOff, BitVec.getLsbD_cast, BitVec.getLsbD_append, BitVec.getLsbD_extractLsb']
  by_cases hoff : i < 18
  · simp [hoff]
  · by_cases hsz : i < 20
    · simp [hoff, show i - 18 < 2 by omega, show 18 + (i - 18) = i by omega]
    · obtain rfl : i = 20 := by omega
      simp

/-- Some row takes every legal access (R97). -/
theorem exists_hits_of_legalAccess {h : BitVec 21}
    (hlegal : legalAccess (hreqWe h) (hreqSz h) (hreqOff h) = true) : ∃ r ∈ hreqRows, r.hits h = true := by
  have hh := hreqOf_fields h
  rw [← offsetOf_extract (hreqOff h)] at hlegal hh
  rw [hreqOf_offsetOf] at hh
  obtain ⟨hsz, hwin, hreg, hal, hrx⟩ := of_legalAccess_offsetOf hlegal
  obtain ⟨r, hr, htop, hmask⟩ := exists_hreqRow_of_top _ _ _ hsz hwin hreg hrx
  refine ⟨r, hr, ?_⟩
  rw [← hh, HreqRow.hits_append hr, HreqRow.takes, htop, hmask,
    and_ofNat_two_pow_sub_one_eq_zero (by omega) hal]
  simp

/-- A descriptor is decoded by a row that takes it, or is BUS_ERROR where none does. -/
theorem decodeHreq_cases (h : BitVec 21) (w : Word) :
    (∃ r ∈ hreqRows, r.hits h = true ∧ decodeHreq h w = r.kind.instr h w) ∨
      ((¬ ∃ r ∈ hreqRows, r.hits h = true) ∧ decodeHreq h w = .busError (hreqWe h) (hreqSz h) (hreqOff h)) := by
  unfold decodeHreq
  split
  · next r hfind =>
    have hhit : r.hits h = true := List.find?_some (p := fun r : HreqRow => r.hits h) hfind
    exact .inl ⟨r, List.mem_of_find?_eq_some hfind, hhit, rfl⟩
  · next hfind => exact .inr ⟨fun ⟨r, hr, hhit⟩ => List.find?_eq_none.1 hfind r hr hhit, rfl⟩

theorem decodeHreq_wf (h : BitVec 21) (w : Word) : (decodeHreq h w).wf = true := by
  obtain ⟨r, hr, hhit, heq⟩ | ⟨hnone, heq⟩ := decodeHreq_cases h w
  · rw [heq, HreqRow.instr_wf_iff hr]
    exact ((HreqRow.hits_iff hr h).1 hhit).2
  · rw [heq, Instr.wf, Bool.not_eq_true', Bool.eq_false_iff]
    exact fun hlegal => hnone (exists_hits_of_legalAccess hlegal)

/-! ## The decoder on all inputs -/

theorem decode_wf {r : RawInput} {i : Instr} (h : decode r = .ok i) : i.wf = true := by
  cases r with
  | cmd w =>
    cases h
    exact decodeCmd_wf w
  | op c => exact opTable_wf _ (decode_op_mem h)
  | hreq d w =>
    cases h
    exact decodeHreq_wf d w
  | other => cases h

theorem decode_encode (i : Instr) (h : i.wf = true) : decode (encode i) = .ok i := by
  cases i with
  | cmdNop | cmdTxStart | cmdRxStart | cmdClose => rfl
  | cmdIllegal w => exact Laws.RoundTrip.cmdIllegal w h
  | nop | txStart | rxStart | close | illegalCmd | txSend | ackAccept | ackIgnore | tickCount | timerExpire
  | tickIdle | sndPeerClosed | rxAccept | rxDupack | rxPeerClose | frameShort | frameOversize | frameStray => rfl
  | regRead off => exact Laws.RoundTrip.regRead off h
  | regWrite off w => exact Laws.RoundTrip.regWrite off w h
  | txbufRd8 o => exact Laws.RoundTrip.txbufRd8 o h
  | txbufRd16 o => exact Laws.RoundTrip.txbufRd16 o h
  | txbufRd32 o => exact Laws.RoundTrip.txbufRd32 o h
  | txbufWr8 o w => exact Laws.RoundTrip.txbufWr8 o w h
  | txbufWr16 o w => exact Laws.RoundTrip.txbufWr16 o w h
  | txbufWr32 o w => exact Laws.RoundTrip.txbufWr32 o w h
  | rxbufRd8 o => exact Laws.RoundTrip.rxbufRd8 o h
  | rxbufRd16 o => exact Laws.RoundTrip.rxbufRd16 o h
  | rxbufRd32 o => exact Laws.RoundTrip.rxbufRd32 o h
  | busError we sz off => exact Laws.RoundTrip.busError we sz off h

end Sys2Proof

namespace Sys2Proof.Machine

open Sys2Proof.Claims

/-! ## The engine's own turn (R99, R181) -/

theorem frameChoice_eq_some {s : State} {i : Instr} (h : frameChoice s = some i) :
    ∃ f rest, s.linkIn = f :: rest ∧ i = classifyFrame s f ∧ (needsReady i = true → s.ready = true) := by
  unfold frameChoice at h
  split at h
  · cases h
  · next f rest hl =>
    obtain ⟨hfree, hi⟩ := Option.ite_none_left_eq_some.1 h
    cases hi
    exact ⟨f, rest, hl, rfl, fun hneeds => Bool.eq_true_of_not_eq_false fun hheld => hfree ⟨hneeds, hheld⟩⟩

theorem frameChoice_eq_none {s : State} (h : frameChoice s = none) :
    ∀ f rest, s.linkIn = f :: rest → needsReady (classifyFrame s f) = true ∧ s.ready = false := by
  intro f rest hl
  unfold frameChoice at h
  rw [hl] at h
  simpa using h

/-- An enabled operation of the engine: TX_SEND, or the one of the head frame (R99). -/
def EngineMayTake (s : State) (i : Instr) : Prop :=
  (i = .txSend ∧ MaySend s) ∨
    ∃ f rest, s.linkIn = f :: rest ∧ i = classifyFrame s f ∧ (needsReady i = true → s.ready = true)

/-- A turn of the engine takes an enabled operation, whatever the free choice says, or none is enabled. -/
theorem engineTurn_takes_enabled (s : State) :
    (engineTurn s = .next s ∧ ¬ MaySend s ∧ frameChoice s = none) ∨
      ∃ i k, engineTurn s = exec i { s with choiceIdx := k } ∧ EngineMayTake s i := by
  have hsend : s.txSendEnabled = true → EngineMayTake s .txSend :=
    fun h => .inl ⟨rfl, (State.txSendEnabled_iff s).1 h⟩
  have hframe : ∀ i, frameChoice s = some i → EngineMayTake s i := fun _ h => .inr (frameChoice_eq_some h)
  unfold engineTurn engineSelect
  cases ht : s.txSendEnabled with
  | false =>
    cases hf : frameChoice s with
    | none => exact .inl ⟨rfl, fun h => Bool.false_ne_true (ht.symm.trans ((State.txSendEnabled_iff s).2 h)), rfl⟩
    | some i => exact .inr ⟨i, s.choiceIdx, rfl, hframe i hf⟩
  | true =>
    cases hf : frameChoice s with
    | none => exact .inr ⟨.txSend, s.choiceIdx, rfl, hsend ht⟩
    | some i =>
      refine .inr ⟨_, s.choiceIdx + 1, rfl, ?_⟩
      split
      · exact hsend ht
      · exact hframe i hf

end Sys2Proof.Machine

namespace Sys2Proof.Proofs

open Sys2Proof Sys2Proof.Machine Sys2Proof.Claims

/-- Settles O1: each row's instruction is what the decoder reads from its own words. -/
theorem decodeReadsBackEveryEncodedInstruction : Obligations.DecodeReadsBackEveryEncodedInstruction :=
  decode_encode

/-- Settles O2, by the case analysis of what each of the three decoders can answer. -/
theorem everyDecodedInstructionIsWellFormed : Obligations.EveryDecodedInstructionIsWellFormed :=
  fun _ _ => decode_wf

/-- Settles O3: the row that took an input fixes every bit that its instruction does not hold. -/
theorem encodingADecodedInputGivesItBack : Obligations.EncodingADecodedInputGivesItBack := by
  refine ⟨fun w i h => ?_, fun c i h => opTable_encode _ (decode_op_mem h), fun d w i h => ?_⟩
  · cases h
    exact encode_decodeCmd w
  · cases h
    obtain ⟨r, hr, hhit, heq⟩ | ⟨hnone, heq⟩ := decodeHreq_cases d w
    · rw [heq, HreqRow.encode_instr hr hhit w]
      cases hwe : hreqWe d with
      | false => exact ⟨.inl rfl, fun h => by cases h⟩
      | true => exact ⟨.inr rfl, fun _ _ => rfl⟩
    · rw [heq, encode, hreqOf_fields]
      exact ⟨.inl rfl, fun _ hrow => absurd hrow hnone⟩

/-- Settles O4: both rows have the descriptor's WE, SZ and window, in which no two rows agree. -/
theorem noTwoDescriptorRowsMatchOneAccess : Obligations.NoTwoDescriptorRowsMatchOneAccess := by
  intro h r r' hr hr' hhit hhit'
  obtain ⟨htop, -⟩ := (HreqRow.hits_iff hr h).1 hhit
  obtain ⟨htop', -⟩ := (HreqRow.hits_iff hr' h).1 hhit'
  exact hreqRows_eq_of_top_eq r hr r' hr' (htop.symm.trans htop')

/-- Settles O12: the empty agenda is a turn of the engine, as is a turn that names it. -/
theorem theEngineTakesSomeEnabledOperation : Obligations.TheEngineTakesSomeEnabledOperation := by
  intro s u hturn
  have hstep : step s = engineTurn u := by
    obtain ⟨ha, rfl⟩ | ⟨rest, ha, rfl⟩ := hturn
    · exact step_nil ha
    · exact step_cons ha
  rw [hstep]
  exact (engineTurn_takes_enabled u).imp_left fun ⟨hwait, hsend, hframe⟩ => ⟨hwait, hsend, frameChoice_eq_none hframe⟩

/-- Settles O5: each word is the encoding of its instruction, and no row of R98 has the code 0x17. -/
theorem wordsOfTheSpecDecodeToTheirInstructions : Obligations.WordsOfTheSpecDecodeToTheirInstructions :=
  ⟨decode_encode .cmdTxStart rfl, decode_encode (.cmdIllegal 0x101) rfl, decode_encode .timerExpire rfl, rfl,
    decode_encode (.regWrite 0x001C 20) rfl, decode_encode (.rxbufRd32 0x0004) rfl,
    decode_encode (.busError false 2 0x10002) rfl⟩

/-- Settles O11, by the conditions of Classify_tick. -/
theorem aTickRunsTheOperationItEnables : Obligations.ATickRunsTheOperationItEnables := by
  intro s rest ha
  have hrun : ∀ i, classifyTick s = i → step s = exec i { s with agenda := rest } := by
    rintro _ rfl
    exact step_cons ha
  exact ⟨fun hr hc => hrun _ ((classifyTick_eq_timerExpire_iff s).2 ⟨hr, hc⟩),
    fun hr hc => hrun _ ((classifyTick_eq_tickCount_iff s).2 ⟨hr, hc⟩), fun hr => hrun _ (if_neg hr)⟩

/-- Settles O22: where R247 lets a command run, its operation code and its command word run the same update. -/
theorem operationRowsOfCommandsRunTheirCommand : Obligations.OperationRowsOfCommandsRunTheirCommand := by
  intro s
  refine ⟨⟨_, rfl, rfl⟩, ⟨_, rfl, rfl⟩, fun hs hl => ?_, fun hs => ?_, rfl⟩
  · have hmay : s.mayStartTx = true := (State.mayStartTx_iff s).2 ⟨(State.stopped_iff s).2 hs, hl⟩
    exact ⟨_, if_pos hmay, if_pos hmay⟩
  · have hmay : s.mayStartRx = true := (State.stopped_iff s).2 hs
    have hack : rxStart (respond .writeDone s) = .next _ := withEncoded_ackPacket _ _ _
    exact ⟨_, (if_pos hmay).trans hack, (if_pos hmay).trans hack⟩

end Sys2Proof.Proofs
end

section
/-! The codec of spec/40_codec.md: what Decode answers for each length (R131), that Encode undoes it (R133), and the
three operations that discard a frame (R134 to R136), one of which is all that the engine does while no transfer
runs. -/

namespace Sys2Proof.Machine

open Sys2Proof.Claims

/-! ## Decode by length, and Encode after Decode (R131, R133) -/

theorem decodeFrame_eq_short {f : Frame} (h1 : 1 ≤ f.length) (h7 : f.length < 7) : decodeFrame f = .short := by
  unfold decodeFrame
  split
  · exact absurd h1 (by simp)
  · exact absurd h7 (by simp)
  · rfl

theorem exists_decodeFrame_eq_pkt {f : Frame} (h : 7 ≤ f.length) : ∃ q, decodeFrame f = .pkt q := by
  match f, h with
  | b0 :: b1 :: b2 :: b3 :: b4 :: b5 :: b6 :: payload, _ => exact ⟨_, rfl⟩

/-- Decode takes byte 6 raw and Encode writes back only its bit 0 (R91), so a flag of 0 or 1 is given back. -/
theorem lowByte_toNat_mod_two {b : Byte} (h : b = 0x00 ∨ b = 0x01) : lowByte (b.toNat % 2) = b := by
  obtain rfl | rfl := h <;> rfl

/-- Encode undoes Decode on the frames that R93 calls packets, where byte 6 is a flag. -/
theorem encodePacket_of_decodeFrame {f : Frame} {q : Packet} (hp : IsPacket f)
    (hflag : f.getD 6 0 = 0x00 ∨ f.getD 6 0 = 0x01) (hd : decodeFrame f = .pkt q) : encodePacket q = .ok f := by
  obtain ⟨hmin, hmax⟩ := hp
  match f, hmin with
  | b0 :: b1 :: b2 :: b3 :: b4 :: b5 :: b6 :: payload, _ =>
    cases hd
    have hpayload : payload.length ≤ 64 := by
      simp only [List.length_cons] at hmax
      omega
    have hb6 : lowByte (b6.toNat % 2) = b6 := lowByte_toNat_mod_two hflag
    rw [encodePacket_ok hpayload]
    simp [headerOf, hb6]

/-! ## Discarding the head frame (R134, R135, R136) -/

theorem State.stopped_of_running {s : State} (h : s.phase = .sending ∨ s.phase = .receiving) : s.stopped = false := by
  obtain h | h := h <;> simp [State.stopped, h]

theorem classifyFrame_of_stopped {s : State} (hs : Stopped s) (f : Frame) : classifyFrame s f = .frameStray :=
  if_pos ((State.stopped_iff s).2 hs)

theorem classifyFrame_of_short {s : State} {f : Frame} (hs : s.stopped = false) (hc : classOf f = .short) :
    classifyFrame s f = .frameShort := by
  simp [classifyFrame, hs, hc]

theorem classifyFrame_of_oversize {s : State} {f : Frame} (hs : s.stopped = false) (hc : classOf f = .oversize) :
    classifyFrame s f = .frameOversize := by
  simp [classifyFrame, hs, hc]

/-- The whole effect of a discard: the head frame is consumed and counted, its event raised and LAST_OP written. -/
theorem onHeadFrame_discard {i : Instr} {s : State} {f : Frame} {rest : List Frame} (e : Event) (code : Byte)
    (hl : s.linkIn = f :: rest) (hc : classifyFrame s f = i) (hi : needsReady i = false) :
    onHeadFrame i (discard e code) s = .next
      { s with linkIn := rest, rxFrames := s.rxFrames + 1, irqStatus := s.irqStatus ||| e.mask,
               events := s.events ++ [⟨e, some f.length⟩], lastOp := code } := by
  rw [onHeadFrame_of_enabled _ hl hc (by simp [hi])]
  simp [discard, recordOp, raise, consume, hl]

theorem exec_frameStray_of_stopped {s : State} {f : Frame} {rest : List Frame} (hs : Stopped s)
    (hl : s.linkIn = f :: rest) :
    exec .frameStray s = .next
      { s with linkIn := rest, rxFrames := s.rxFrames + 1, irqStatus := s.irqStatus ||| 0x80,
               events := s.events ++ [⟨.strayFrame, some f.length⟩], lastOp := 0x32 } :=
  onHeadFrame_discard .strayFrame 0x32 hl (classifyFrame_of_stopped hs f) rfl

/-! ## The engine while no transfer runs (R99, R178) -/

theorem phase_ne_sending_of_stopped {s : State} (hs : Stopped s) : s.phase ≠ .sending := by
  obtain h | h | h := hs <;> simp [h]

theorem State.txSendEnabled_of_stopped {s : State} (hs : Stopped s) : s.txSendEnabled = false :=
  Bool.eq_false_of_not_eq_true fun h => phase_ne_sending_of_stopped hs ((State.txSendEnabled_iff s).1 h).1

theorem classifyTick_of_stopped {s : State} (hs : Stopped s) : classifyTick s = .tickIdle :=
  if_neg fun h => phase_ne_sending_of_stopped hs h.1

/-- With TX_SEND not enabled the free choice is not asked: the head frame's operation runs, if there is one. -/
theorem engineTurn_of_frameChoice_some {s : State} {i : Instr} (ht : s.txSendEnabled = false)
    (hf : frameChoice s = some i) : engineTurn s = exec i s := by
  rw [engineTurn, engineSelect, ht, hf]

theorem engineTurn_of_frameChoice_none {s : State} (ht : s.txSendEnabled = false) (hf : frameChoice s = none) :
    engineTurn s = .next s := by
  rw [engineTurn, engineSelect, ht, hf]
  rfl

theorem frameChoice_of_linkIn_nil {s : State} (hl : s.linkIn = []) : frameChoice s = none := by
  rw [frameChoice, hl]

theorem frameChoice_of_stopped {s : State} {f : Frame} {rest : List Frame} (hs : Stopped s)
    (hl : s.linkIn = f :: rest) : frameChoice s = some .frameStray := by
  simp [frameChoice, hl, classifyFrame_of_stopped hs f, needsReady]

/-- While no transfer runs TX_SEND is not enabled, so an engine turn is FRAME_STRAY of the head frame or a wait. -/
theorem engineTurn_of_stopped {s : State} (hs : Stopped s) :
    (s.linkIn = [] → engineTurn s = .next s) ∧
      ∀ f rest, s.linkIn = f :: rest →
        engineTurn s = .next
          { s with linkIn := rest, rxFrames := s.rxFrames + 1, irqStatus := s.irqStatus ||| 0x80,
                   events := s.events ++ [⟨.strayFrame, some f.length⟩], lastOp := 0x32 } := by
  have hsend := State.txSendEnabled_of_stopped hs
  refine ⟨fun hl => engineTurn_of_frameChoice_none hsend (frameChoice_of_linkIn_nil hl), fun f rest hl => ?_⟩
  rw [engineTurn_of_frameChoice_some hsend (frameChoice_of_stopped hs hl), exec_frameStray_of_stopped hs hl]

end Sys2Proof.Machine

namespace Sys2Proof.Proofs

open Sys2Proof Sys2Proof.Machine Sys2Proof.Claims

/-- Settles O7: Decode reads back the header that Encode lays out, and Encode lays out again what Decode read. -/
theorem codecLawBothWays : Obligations.CodecLawBothWays := by
  refine ⟨fun p hp => ⟨_, encodePacket_ok hp, decodeFrame_headerOf_append p p.payload⟩, fun f hp hflag => ?_⟩
  obtain ⟨q, hq⟩ := exists_decodeFrame_eq_pkt hp.1
  exact ⟨q, hq, encodePacket_of_decodeFrame hp hflag hq⟩

/-- Settles O40: the empty agenda is a turn of the engine, as is a turn that names it, and Classify_tick answers
TICK_IDLE. -/
theorem whileStoppedTheEngineOnlyDiscardsFrames : Obligations.WhileStoppedTheEngineOnlyDiscardsFrames := by
  intro s u hs
  constructor
  · intro hturn
    obtain ⟨ha, rfl⟩ | ⟨rest, ha, rfl⟩ := hturn
    · rw [step_nil ha]
      exact engineTurn_of_stopped hs
    · rw [step_cons ha]
      exact engineTurn_of_stopped (s := { s with agenda := rest }) hs
  · intro rest ha
    have htick : classifyTick { s with agenda := rest } = .tickIdle := classifyTick_of_stopped hs
    calc step s = exec (classifyTick { s with agenda := rest }) { s with agenda := rest } := step_cons ha
      _ = exec .tickIdle { s with agenda := rest } := by rw [htick]

/-- Settles O8, by the three patterns of Decode. -/
theorem decodeTakesFieldsByPosition : Obligations.DecodeTakesFieldsByPosition :=
  ⟨rfl, fun _ => decodeFrame_eq_short, fun _ _ _ _ _ _ _ _ => rfl⟩

/-- Settles O39: by its length and the phase the head frame enables the operation, and each is a discard. -/
theorem discardedFramesOnlyRaiseTheirEvent : Obligations.DiscardedFramesOnlyRaiseTheirEvent := by
  intro s f rest hl
  refine ⟨fun hs h1 h6 => ?_, fun hs h72 => ?_, fun hs => exec_frameStray_of_stopped hs hl⟩
  · have hc := classifyFrame_of_short (State.stopped_of_running hs) ((classOf_short_iff f).2 ⟨h1, h6⟩)
    exact onHeadFrame_discard .shortFrame 0x30 hl hc rfl
  · have hc := classifyFrame_of_oversize (State.stopped_of_running hs) ((classOf_oversize_iff f).2 h72)
    exact onHeadFrame_discard .oversizeFrame 0x31 hl hc rfl

end Sys2Proof.Proofs
end

section
/-! The window of spec/41_seqarith.md: the comparator modulo 256 is the absolute test (R154, R161), TX_BASE advances by
one and only on its own ack (R156), and the invariant of the block, R162 with the clauses the other files add, is kept
by every step. The invariant is proved clause by clause: what the sender keeps while its window is open, then each
buffer, LA and link-out. -/

namespace Sys2Proof.Machine

open Sys2Proof.Claims

/-! ## The window comparator (R152, R154, R161) -/

/-- A distance that fits the window is not cut by the low bytes. -/
theorem seqDist_seqOf_toNat {base next : BitVec 16} (hle : base.toNat ≤ next.toNat)
    (hfit : next.toNat - base.toNat ≤ 8) : (seqDist (seqOf next) (seqOf base)).toNat = next.toNat - base.toNat := by
  simp only [seqDist, seqOf, BitVec.toNat_sub, BitVec.toNat_setWidth]
  omega

theorem winSpace_iff (base next : BitVec 16) :
    winSpace base next = true ↔ (seqDist (seqOf next) (seqOf base)).toNat < 8 := by
  simp [winSpace, Config.windowSize, BitVec.ult]

/-! ## TX_BASE (R156, R174, R175) -/

theorem txStart_window (s : State) : (txStart s).txBase = 0 ∧ (txStart s).txNext = 0 := by
  obtain ⟨_, _, _, h, -⟩ := txStart_form s
  rw [h]
  exact ⟨rfl, rfl⟩

@[simp] theorem ackAccept_txBase (s : State) : (ackAccept s).txBase = s.txBase + 1 := by
  obtain ⟨_, _, _, _, _, _, _, h, -⟩ := ackAccept_form s
  rw [h]

@[simp] theorem sendFrame_txBase (f : Frame) (s : State) : (sendFrame f s).txBase = s.txBase := by
  obtain ⟨_, _, h, -⟩ := sendFrame_form f s
  rw [h]

@[simp] theorem append_txBase (payload : List Byte) (s : State) : (append payload s).txBase = s.txBase := by
  obtain ⟨_, _, _, _, h, -⟩ := append_form payload s
  rw [h]

/-- A start clears TX_BASE, an ack equal to it moves it by one, and no other effect writes it. -/
theorem Effect.txBase_cases {i : Instr} {s t : State} (h : Effect i s t) :
    t.txBase = s.txBase ∨ (t.txBase = 0 ∧ t.txNext = 0 ∧ t.lastOp = 0x01) ∨
      (i = .ackAccept ∧ t.txBase = s.txBase + 1 ∧
        ∃ f rest, s.linkIn = f :: rest ∧ classOf f = .packet ∧ frameAck f = seqOf s.txBase) := by
  cases h
  case txStart =>
    obtain ⟨hbase, hnext⟩ := txStart_window (respond .writeDone s)
    exact .inr (.inl ⟨hbase, hnext, txStart_lastOp _⟩)
  case ackAccept f rest hl hc =>
    obtain ⟨-, hpacket, hack⟩ := classifyFrame_ackAccept hc
    exact .inr (.inr ⟨rfl, ackAccept_txBase _, f, rest, hl, hpacket, hack⟩)
  case txSend => exact .inl (sendFrame_txBase _ _)
  case rxAccept => exact .inl (append_txBase _ _)
  all_goals exact .inl rfl

/-! ## The sender's clauses of the invariant (R30, R36, R162, R180, R182) -/

/-- The clauses of the invariant that speak of the sender. -/
def State.SenderOk (s : State) : Prop := s.WindowOk ∧ s.DoneOk ∧ s.FlagsOk ∧ s.TimerOk

/-- Every retransmit flag that is set belongs to a packet of the transfer in the window (R36). -/
def State.FlagsInWindow (s : State) : Prop :=
  ∀ j < 8, s.rflag.getLsbD j = true →
    ∃ k < s.txTotal.toNat, s.txBase.toNat ≤ k ∧ k < s.txBase.toNat + 8 ∧ slot k = j

/-- The window of a running transfer; that a packet is still to be acknowledged is not part of it, so that it holds in
the middle of ACK_ACCEPT as well. -/
structure State.WindowOpen (s : State) : Prop where
  base_le_next : s.txBase.toNat ≤ s.txNext.toNat
  next_le_total : s.txNext.toNat ≤ s.txTotal.toNat
  size_le : s.txNext.toNat - s.txBase.toNat ≤ 8
  total_eq : s.txTotal = totalPkts s.txLen
  len_le : s.txLen.toNat ≤ s.params.txbufBytes
  flags : s.FlagsInWindow

/-- The timer is armed exactly while the window is not empty, and 0 while disarmed (R30, R162). -/
def State.TimerFollowsWindow (s : State) : Prop :=
  (s.tmrAct = true ↔ s.txBase ≠ s.txNext) ∧ (s.tmrAct = false → s.tmrCnt = 0)

theorem State.senderOk_iff_of_sending {s : State} (hp : s.phase = .sending) :
    s.SenderOk ↔ s.WindowOpen ∧ s.TimerFollowsWindow ∧ s.txBase.toNat < s.txTotal.toNat := by
  constructor
  · rintro ⟨hwin, -, hflags, hcnt, -⟩
    obtain ⟨hle, hnext, hsize, hact, hlt, htotal, hlen⟩ := hwin hp
    exact ⟨⟨hle, hnext, hsize, htotal, hlen, hflags (.inl hp)⟩, ⟨hact, hcnt⟩, hlt⟩
  · rintro ⟨⟨hle, hnext, hsize, htotal, hlen, hflags⟩, ⟨hact, hcnt⟩, hlt⟩
    exact ⟨fun _ => ⟨hle, hnext, hsize, hact, hlt, htotal, hlen⟩, by simp [hp], fun _ => hflags, hcnt,
      fun hne => absurd hp hne⟩

/-- Outside a transfer to send, only the timer is constrained. -/
theorem State.senderOk_of_disarmed {s : State} (hp : s.phase ∉ [Phase.sending, .sendDone]) (hact : s.tmrAct = false)
    (hcnt : s.tmrCnt = 0) : s.SenderOk := by
  simp only [List.mem_cons, List.not_mem_nil, or_false, not_or] at hp
  obtain ⟨hsending, hdone⟩ := hp
  exact ⟨fun h => absurd h hsending, fun h => absurd h hdone, fun h => (h.elim hsending hdone).elim, fun _ => hcnt,
    fun _ => hact⟩

theorem State.SenderOk.disarmed {s : State} (h : s.SenderOk) (hp : s.phase ≠ .sending) :
    s.tmrAct = false ∧ s.tmrCnt = 0 := by
  obtain ⟨-, -, -, hcnt, hact⟩ := h
  exact ⟨hact hp, hcnt (hact hp)⟩

/-- TX_START opens an empty window, or is done at once with the empty stream (R170). -/
theorem txStart_senderOk {s : State} (hlen : s.txLen.toNat ≤ s.params.txbufBytes) : (txStart s).SenderOk := by
  have hflags : (txStart s).FlagsInWindow := by
    obtain ⟨_, _, _, h, -⟩ := txStart_form s
    rw [h]
    intro j _ hj
    simp at hj
  unfold txStart enterSending at hflags ⊢
  split at hflags
  · next hzero =>
    rw [if_pos hzero]
    exact ⟨nofun, fun _ => ⟨hzero.symm, hzero.symm⟩, fun _ => hflags, fun _ => rfl, fun _ => rfl⟩
  · next hpos =>
    rw [if_neg hpos]
    have htotal : 0 < (totalPkts s.txLen).toNat :=
      Nat.pos_of_ne_zero fun h0 => hpos (BitVec.eq_of_toNat_eq h0)
    exact (State.senderOk_iff_of_sending rfl).2
      ⟨⟨le_refl _, Nat.zero_le _, Nat.zero_le _, rfl, hlen, hflags⟩, ⟨by simp [openWindow], fun _ => rfl⟩, htotal⟩

/-- TX_SEND finds space in the window and a packet to send, and arms the timer of an empty window (R172). -/
theorem sendFrame_senderOk {s : State} (f : Frame) (he : s.txSendEnabled = true) (h : s.SenderOk) :
    (sendFrame f s).SenderOk := by
  obtain ⟨hp, hspace, hnext, -⟩ := (State.txSendEnabled_iff s).1 he
  obtain ⟨hw, ⟨hact, hcnt⟩, hlt⟩ := (State.senderOk_iff_of_sending hp).1 h
  have hle := hw.base_le_next
  have hfit : s.txNext.toNat - s.txBase.toNat < 8 := seqDist_seqOf_toNat hle hw.size_le ▸ hspace
  have hinc : (s.txNext + 1).toNat = s.txNext.toNat + 1 := by bv_omega
  have hne : s.txBase ≠ s.txNext + 1 := by bv_omega
  have hle' : s.txBase.toNat ≤ (s.txNext + 1).toNat := by omega
  have hnext' : (s.txNext + 1).toNat ≤ s.txTotal.toNat := by omega
  have hsize' : (s.txNext + 1).toNat - s.txBase.toNat ≤ 8 := by omega
  have hsent : (sendFrame f s).WindowOpen ∧ (sendFrame f s).txBase.toNat < (sendFrame f s).txTotal.toNat := by
    obtain ⟨_, _, hform, -⟩ := sendFrame_form f s
    rw [hform]
    exact ⟨⟨hle', hnext', hsize', hw.total_eq, hw.len_le, hw.flags⟩, hlt⟩
  have htimer : (sendFrame f s).TimerFollowsWindow := by
    unfold sendFrame
    split
    · exact ⟨iff_of_true rfl hne, nofun⟩
    · next hopen => exact ⟨iff_of_true (hact.2 hopen) hne, hcnt⟩
  have hsending : (sendFrame f s).phase = .sending := (sendFrame_phase f s).trans hp
  exact (State.senderOk_iff_of_sending hsending).2 ⟨hsent.1, htimer, hsent.2⟩

/-- The packet acknowledged leaves the window with its flag, and TX_NEXT follows where it stood behind (R174). -/
theorem State.WindowOpen.advance {s : State} (h : s.WindowOpen) (hlt : s.txBase.toNat < s.txTotal.toNat) :
    (raiseNext (advanceBase s)).WindowOpen := by
  have hinc : (s.txBase + 1).toNat = s.txBase.toNat + 1 := by bv_omega
  have hflags : (advanceBase s).FlagsInWindow := by
    intro j hj hset
    have hset' : s.rflag.getLsbD j = true ∧ j ≠ slot s.txBase.toNat := by
      simpa [advanceBase, clearFlag_getLsbD _ _ hj] using hset
    obtain ⟨k, hk, hge, hlt8, rfl⟩ := h.flags j hj hset'.1
    have hne : k ≠ s.txBase.toNat := fun heq => hset'.2 (by rw [heq])
    have hge' : (s.txBase + 1).toNat ≤ k := by omega
    have hlt8' : k < (s.txBase + 1).toNat + 8 := by omega
    exact ⟨k, hk, hge', hlt8', rfl⟩
  have hbase : (s.txBase + 1).toNat ≤ s.txTotal.toNat := by omega
  have hsize : s.txNext.toNat - (s.txBase + 1).toNat ≤ 8 := by have := h.size_le; omega
  unfold raiseNext
  split
  · exact ⟨le_refl _, hbase, (Nat.sub_self _).le.trans (Nat.zero_le 8), h.total_eq, h.len_le, hflags⟩
  · next hbehind =>
    have hge : (s.txBase + 1).toNat ≤ s.txNext.toNat := by simpa [BitVec.ult, advanceBase] using hbehind
    exact ⟨hge, h.next_le_total, hsize, h.total_eq, h.len_le, hflags⟩

@[simp] theorem raiseNext_phase (s : State) : (raiseNext s).phase = s.phase := by
  unfold raiseNext
  split <;> rfl

theorem retimeWindow_form (s : State) :
    ∃ act cnt, retimeWindow s = { s with tmrAct := act, tmrCnt := cnt } ∧
      (retimeWindow s).TimerFollowsWindow := by
  unfold retimeWindow
  split
  · next hempty => exact ⟨_, _, rfl, iff_of_false nofun (not_not.2 hempty), fun _ => rfl⟩
  · next hopen => exact ⟨_, _, rfl, iff_of_true rfl hopen, nofun⟩

/-- Once every packet is acknowledged the window is empty, so the timer stands disarmed (R174, R180). -/
theorem finishSending_senderOk {s : State} (hp : s.phase = .sending) (hw : s.WindowOpen)
    (ht : s.TimerFollowsWindow) : (finishSending s).SenderOk := by
  have hle := hw.base_le_next
  have hnext := hw.next_le_total
  unfold finishSending
  split
  · next hdone =>
    have hempty : s.txBase = s.txNext := by bv_omega
    have hact : s.tmrAct = false := by simpa [hempty] using ht.1
    exact ⟨nofun, fun _ => ⟨hdone, hempty ▸ hdone⟩, fun _ => hw.flags, ht.2, fun _ => hact⟩
  · next hmore =>
    exact (State.senderOk_iff_of_sending hp).2 ⟨hw, ht, by bv_omega⟩

/-- ACK_ACCEPT, update by update (R174). -/
theorem ackAccept_senderOk {s : State} (hp : s.phase = .sending) (h : s.SenderOk) : (ackAccept s).SenderOk := by
  obtain ⟨hw, -, hlt⟩ := (State.senderOk_iff_of_sending hp).1 h
  have hadvanced := hw.advance hlt
  have hsending : (raiseNext (advanceBase s)).phase = .sending := (raiseNext_phase _).trans hp
  obtain ⟨act, cnt, hform, htimer⟩ := retimeWindow_form (raiseNext (advanceBase s))
  rw [hform] at htimer
  unfold ackAccept
  rw [hform]
  exact finishSending_senderOk hsending { hadvanced with } htimer

/-- TIMER_EXPIRE marks only packets of the window and empties it (R177). -/
theorem timerExpire_senderOk {s : State} (hp : s.phase = .sending) (h : s.SenderOk) : (timerExpire s).SenderOk := by
  obtain ⟨hw, -, hlt⟩ := (State.senderOk_iff_of_sending hp).1 h
  have hflags : (timerExpire s).FlagsInWindow := by
    intro j hj hset
    have hle := hw.base_le_next
    have hnext := hw.next_le_total
    have hsize := hw.size_le
    rcases (setFlags_getLsbD_iff _ _ _ hj).1 hset with hold | ⟨k, hge, hk, hslot⟩
    · exact hw.flags j hj hold
    · have hlast : k < s.txTotal.toNat := by omega
      have hlt8 : k < s.txBase.toNat + 8 := by omega
      exact ⟨k, hlast, hge, hlt8, hslot⟩
  have hopen : (timerExpire s).WindowOpen :=
    ⟨le_refl _, Nat.le_of_lt hlt, (Nat.sub_self _).le.trans (Nat.zero_le 8), hw.total_eq, hw.len_le, hflags⟩
  have hsending : (timerExpire s).phase = .sending := hp
  exact (State.senderOk_iff_of_sending hsending).2 ⟨hopen, ⟨iff_of_false nofun (· rfl), fun _ => rfl⟩, hlt⟩

/-- No effect breaks a clause of the sender. -/
theorem Effect.senderOk {i : Instr} {s t : State} (he : Effect i s t) (h : s.SenderOk) : t.SenderOk := by
  cases he
  case txStart hm => exact txStart_senderOk ((State.mayStartTx_iff s).1 hm).2
  case txSend hen _ => exact sendFrame_senderOk _ hen h
  case ackAccept hc =>
    obtain ⟨hp, -⟩ := classifyFrame_ackAccept hc
    exact ackAccept_senderOk (s := consume s) hp h
  case timerExpire hc =>
    obtain ⟨⟨hp, -⟩, -⟩ := (classifyTick_eq_timerExpire_iff s).1 hc
    exact timerExpire_senderOk hp h
  case tickCount hc =>
    obtain ⟨hact, -⟩ := classifyTick_tickCount hc
    obtain ⟨hwin, hdone, hflags, -, hdisarmed⟩ := h
    exact ⟨hwin, hdone, hflags, fun hoff => absurd hact (Bool.eq_false_iff.1 hoff), hdisarmed⟩
  case configure hlen =>
    obtain ⟨hwin, hdone, hflags, htimer⟩ := h
    exact ⟨fun hp => by rw [hlen hp]; exact hwin hp, hdone, hflags, htimer⟩
  case rxStart hm =>
    have hidle : s.phase ≠ .sending := by
      rcases (State.stopped_iff s).1 hm with hp | hp | hp <;> simp [hp]
    obtain ⟨hact, hcnt⟩ := h.disarmed hidle
    exact State.senderOk_of_disarmed (by simp [recordOp, clearCounters]) hact hcnt
  case rxPeerClose hc =>
    obtain ⟨hp, -⟩ := classifyFrame_rxPeerClose hc
    obtain ⟨hact, hcnt⟩ := h.disarmed (by simp [hp])
    exact State.senderOk_of_disarmed (by simp [recordOp]) hact hcnt
  case close => exact State.senderOk_of_disarmed (by simp [commandClose, disarmTimer, recordOp]) rfl rfl
  case rxAccept f _ _ _ =>
    obtain ⟨_, _, _, _, hform, -⟩ := append_form (framePayload f) (consume s)
    rw [hform]
    exact h
  all_goals exact h

/-! ## The buffers' clauses (R38, R45, R66, R67, R215) -/

/-- A buffer of `limit` bytes is in canonical form, and no byte stands outside it. -/
def BufferOk (m : Memory) (limit : Nat) : Prop := Memory.wf m = true ∧ ∀ c ∈ m, c.1 < limit

theorem BufferOk.writeBytes {m : Memory} {limit off : Nat} {bs : List Byte} (h : BufferOk m limit)
    (hfit : off + bs.length ≤ limit) : BufferOk (writeBytes m off bs) limit := by
  obtain ⟨hwf, hin⟩ := h
  refine ⟨writeBytes_wf off bs hwf, fun c hc => ?_⟩
  rcases mem_writeBytes hc with hold | ⟨-, hlt⟩
  · exact hin c hold
  · exact hlt.trans_le hfit

/-- RXBUF as a buffer, and the bytes received, which lie in it and hold values. -/
def State.RxbufOk (s : State) : Prop :=
  BufferOk s.rxbuf s.params.rxbufBytes ∧ s.rxLen.toNat ≤ s.params.rxbufBytes ∧
    ∀ a < s.rxLen.toNat, (Memory.read s.rxbuf a).isSome = true

/-- The clauses of the invariant that speak of the two buffers. -/
def State.StorageOk (s : State) : Prop := BufferOk s.txbuf s.params.txbufBytes ∧ s.RxbufOk

theorem append_rxbuf (payload : List Byte) (s : State) :
    (append payload s).rxbuf = (appendBytes s.params.rxbufBytes payload s.rxbuf s.rxLen).1 := by
  unfold append
  dsimp only
  split <;> rfl

theorem append_rxLen (payload : List Byte) (s : State) :
    (append payload s).rxLen = (appendBytes s.params.rxbufBytes payload s.rxbuf s.rxLen).2.1 := by
  unfold append
  dsimp only
  split <;> rfl

/-- Append writes the bytes that fit right after those already received, so all of them hold values (R215). -/
theorem append_rxbufOk {s : State} (payload : List Byte) (hlimit : s.params.rxbufBytes ≤ 65536) (h : s.RxbufOk) :
    (append payload s).RxbufOk := by
  obtain ⟨hbuf, hlen, hread⟩ := h
  obtain ⟨hbytes, hlen', -⟩ := appendBytes_spec hlimit payload s.rxbuf s.rxLen hlen
  have hstored : (payload.take (s.params.rxbufBytes - s.rxLen.toNat)).length =
      min (s.params.rxbufBytes - s.rxLen.toNat) payload.length := List.length_take
  unfold State.RxbufOk
  rw [append_rxbuf, append_rxLen, append_params, hbytes, hlen']
  refine ⟨hbuf.writeBytes (by omega), Nat.min_le_left _ _, fun a ha => ?_⟩
  rw [read_writeBytes]
  split
  · exact Option.isSome_iff_exists.2 ⟨_, List.getElem?_eq_getElem (by omega)⟩
  · exact hread a (by omega)

/-- Only a host write of TXBUF, Append and RX_START touch the buffers or RX_LEN. -/
theorem Effect.storageOk {i : Instr} {s t : State} (he : Effect i s t) (hlegal : s.params.Legal)
    (h : s.StorageOk) : t.StorageOk := by
  obtain ⟨htx, hrx⟩ := h
  cases he
  case bufferWrite o n w _ hb =>
    obtain ⟨-, hfit⟩ := (inBuffer_iff _ _ _).1 hb
    exact ⟨htx.writeBytes (by rwa [leBytes_length]), hrx⟩
  case rxAccept f _ _ _ =>
    obtain ⟨-, -, -, -, hlimit, -⟩ := hlegal
    have htx' : BufferOk (append (framePayload f) (consume s)).txbuf
        (append (framePayload f) (consume s)).params.txbufBytes := by
      rw [append_txbuf, append_params]
      exact htx
    exact ⟨htx', append_rxbufOk (s := consume s) _ hlimit hrx⟩
  case rxStart =>
    obtain ⟨hbuf, -⟩ := hrx
    exact ⟨htx, hbuf, Nat.zero_le _, fun a ha => absurd ha (Nat.not_lt_zero a)⟩
  case txStart =>
    obtain ⟨_, _, _, hform, -⟩ := txStart_form (respond .writeDone s)
    rw [hform]
    exact ⟨htx, hrx⟩
  case txSend =>
    obtain ⟨_, _, hform, -⟩ := sendFrame_form _ s
    rw [hform]
    exact ⟨htx, hrx⟩
  case ackAccept =>
    obtain ⟨_, _, _, _, _, _, _, hform, -⟩ := ackAccept_form (consume s)
    rw [hform]
    exact ⟨htx, hrx⟩
  all_goals exact ⟨htx, hrx⟩

/-! ## The frames' clauses (R39, R77, R212, R213) -/

/-- The clauses of the invariant that speak of LA and of the frames on link-out. -/
def State.FramesOk (s : State) : Prop :=
  (∀ f ∈ s.la.toList, IsPacket f) ∧ (s.phase = .receiving → s.la.map frameAck = some (s.rxExpected - 1)) ∧ s.LinkOk

/-- Outside RECEIVING it does not matter what LA acknowledges. -/
theorem State.FramesOk.of_not_receiving {s t : State} (h : s.FramesOk) (hp : t.phase ≠ .receiving) (hla : t.la = s.la)
    (hout : t.linkOut = s.linkOut) : t.FramesOk := by
  obtain ⟨hpacket, -, hlink⟩ := h
  exact ⟨hla ▸ hpacket, fun hr => absurd hr hp, fun f hf => hlink f (hout ▸ hf)⟩

/-- A frame emitted is a packet, like those that stand on link-out. -/
theorem State.LinkOk.emit {s : State} {f : Frame} (h : s.LinkOk) (hf : IsPacket f) : (emit f s).LinkOk :=
  List.forall_mem_append.2 ⟨h, List.forall_mem_singleton.2 hf⟩

theorem txStart_phase_ne_receiving (s : State) : (txStart s).phase ≠ .receiving := by
  unfold txStart enterSending
  split <;> simp [recordOp]

theorem ackAccept_phase_ne_receiving {s : State} (hp : s.phase = .sending) : (ackAccept s).phase ≠ .receiving := by
  obtain ⟨_, _, hform, -⟩ := retimeWindow_form (raiseNext (advanceBase s))
  unfold ackAccept finishSending
  rw [hform]
  split <;> simp [recordOp, advanceBase, hp]

theorem txStart_la (s : State) : (txStart s).la = s.la := by
  obtain ⟨_, _, _, hform, -⟩ := txStart_form s
  rw [hform]

theorem ackAccept_la (s : State) : (ackAccept s).la = s.la := by
  obtain ⟨_, _, _, _, _, _, _, hform, -⟩ := ackAccept_form s
  rw [hform]

/-- The frame of a fragment that was read is a packet (R158, R171). -/
theorem dataPacket_isPacket {s : State} {payload : List Byte}
    (hr : readBytes .txbuf s.txbuf (fragOff s.txNext).toNat (fragLen s.txLen s.txNext) = .ok payload) :
    IsPacket (headerOf (dataPacket s s.txNext payload) ++ payload) := by
  obtain ⟨hlen, -⟩ := (readBytes_ok_iff _ _ _ _ _).1 hr
  have hmax : fragLen s.txLen s.txNext ≤ 64 := Nat.min_le_left _ _
  unfold IsPacket
  rw [List.length_append, headerOf_length]
  omega

/-- Every frame emitted is a data packet, an ack just built or LA, and LA follows RX_EXPECTED. -/
theorem Effect.framesOk {i : Instr} {s t : State} (he : Effect i s t) (h : s.FramesOk) : t.FramesOk := by
  cases he
  case txStart =>
    exact h.of_not_receiving (txStart_phase_ne_receiving _) (txStart_la _)
      (congrArg Ports.linkOut (txStart_ports (respond .writeDone s)) :)
  case ackAccept hc =>
    obtain ⟨hp, -⟩ := classifyFrame_ackAccept hc
    exact h.of_not_receiving (ackAccept_phase_ne_receiving (s := consume s) hp) (ackAccept_la _)
      (congrArg Ports.linkOut (ackAccept_ports (consume s)) :)
  case rxPeerClose | close => exact h.of_not_receiving nofun rfl rfl
  case txSend hr =>
    obtain ⟨hpacket, hack, hlink⟩ := h
    obtain ⟨_, _, hform, -⟩ := sendFrame_form (headerOf (dataPacket s s.txNext _) ++ _) s
    rw [hform]
    exact ⟨hpacket, hack, hlink.emit (dataPacket_isPacket hr)⟩
  case rxAccept f _ _ _ =>
    obtain ⟨-, -, hlink⟩ := h
    have hnew : IsPacket (ackFrame s s.rxExpected) := ackFrame_length s s.rxExpected
    obtain ⟨_, _, _, _, hform, -⟩ := append_form (framePayload f) (consume s)
    rw [hform]
    refine ⟨by simpa [recordOp] using hnew, fun _ => ?_, hlink.emit hnew⟩
    show some (frameAck (ackFrame s s.rxExpected)) = some (seqInc s.rxExpected - 1)
    rw [frameAck_ackFrame, seqInc_sub_one]
  case rxDupack ha =>
    obtain ⟨hpacket, hack, hlink⟩ := h
    exact ⟨hpacket, hack, hlink.emit (hpacket _ (by simp [ha]))⟩
  case rxStart =>
    obtain ⟨-, -, hlink⟩ := h
    refine ⟨by simpa [recordOp, clearCounters] using ackFrame_length s 255, fun _ => ?_, hlink⟩
    show some (frameAck (ackFrame s 255)) = some (0 - 1)
    rw [frameAck_ackFrame]
    rfl
  all_goals exact h

/-! ## The invariant of the block (R162) -/

/-- The clauses of the invariant, grouped by what writes them. -/
theorem State.inv_iff (s : State) : s.Inv ↔ s.params.Legal ∧ s.StorageOk ∧ s.SenderOk ∧ s.FramesOk := by
  constructor
  · rintro ⟨hlegal, ⟨htx, hrx, htxIn, hrxIn⟩, hwin, hdone, hflags, htimer, ⟨hlen, hread, hpacket, hack⟩, hlink⟩
    exact ⟨hlegal, ⟨⟨htx, htxIn⟩, ⟨hrx, hrxIn⟩, hlen, hread⟩, ⟨hwin, hdone, hflags, htimer⟩, hpacket, hack, hlink⟩
  · rintro ⟨hlegal, ⟨⟨htx, htxIn⟩, ⟨hrx, hrxIn⟩, hlen, hread⟩, ⟨hwin, hdone, hflags, htimer⟩, hpacket, hack, hlink⟩
    exact ⟨hlegal, ⟨htx, hrx, htxIn, hrxIn⟩, hwin, hdone, hflags, htimer, ⟨hlen, hread, hpacket, hack⟩, hlink⟩

theorem exec_inv {i : Instr} {s t : State} (h : exec i s = .next t) (hinv : s.Inv) : t.Inv := by
  have he := exec_effect h
  obtain ⟨hlegal, hstorage, hsender, hframes⟩ := s.inv_iff.1 hinv
  exact t.inv_iff.2 ⟨he.params_eq ▸ hlegal, he.storageOk hlegal hstorage, he.senderOk hsender, he.framesOk hframes⟩

/-- LINK only takes frames away from link-out, and a reset leaves nothing to be constrained but the buffers' bytes and
the link. -/
theorem StepEffect.inv {s t : State} (h : StepEffect s t) (hinv : s.Inv) : t.Inv := by
  cases h with
  | wait | deliver | setReady => exact hinv
  | run rest k i _ h => exact exec_inv h hinv
  | take =>
    obtain ⟨hlegal, hstorage, hsender, hpacket, hack, hlink⟩ := s.inv_iff.1 hinv
    exact (State.inv_iff _).2 ⟨hlegal, hstorage, hsender, hpacket, hack, fun f hf => hlink f (List.mem_of_mem_tail hf)⟩
  | drop =>
    obtain ⟨hlegal, hstorage, hsender, hpacket, hack, hlink⟩ := s.inv_iff.1 hinv
    exact (State.inv_iff _).2
      ⟨hlegal, hstorage, hsender, hpacket, hack, fun f hf => hlink f (List.mem_of_mem_dropLast hf)⟩
  | reset =>
    obtain ⟨hlegal, ⟨htx, hrx, -⟩, -, -, -, hlink⟩ := s.inv_iff.1 hinv
    have hsender : (applyReset s).SenderOk := State.senderOk_of_disarmed (by simp [State.reset]) rfl rfl
    exact (State.inv_iff _).2
      ⟨hlegal, ⟨htx, hrx, Nat.zero_le _, fun a ha => absurd ha (Nat.not_lt_zero a)⟩, hsender, nofun, nofun, hlink⟩

end Sys2Proof.Machine

namespace Sys2Proof.Proofs

open Sys2Proof Sys2Proof.Machine

/-- Settles O42, by the case analysis of what a step can do. -/
theorem everyStepKeepsTheInvariant : Obligations.EveryStepKeepsTheInvariant :=
  fun _ _ hinv h => (step_stepEffect h).inv hinv

/-- Settles O9: the low bytes keep a distance of at most 8. -/
theorem windowComparatorIsTheAbsoluteTest : Obligations.WindowComparatorIsTheAbsoluteTest := by
  intro base next hle hfit
  have hdist := seqDist_seqOf_toNat hle hfit
  refine ⟨hdist, ?_⟩
  rw [winSpace_iff, hdist]
  omega

/-- Settles O46: Classify_frame enables ACK_ACCEPT only for a packet whose ack equals TX_BASE's low byte. -/
theorem baseAdvancesOnlyOnItsOwnAck : Obligations.BaseAdvancesOnlyOnItsOwnAck := by
  intro i s t h hne
  rcases (exec_effect h).txBase_cases with hkept | hstart | ⟨hi, hbase, f, rest, hl, hpacket, hack⟩
  · exact absurd hkept hne
  · exact .inl hstart
  · exact .inr ⟨hi, hbase, f, rest, hl, (classOf_packet_iff f).1 hpacket, hack⟩

end Sys2Proof.Proofs
end

section
/-! The sender of spec/42_sender.md: TX_START (R170), TX_SEND and the frame it builds (R171, R172), the acknowledgment
listener (R173 to R175, R179) and the retransmission timer (R176 to R178), each composite update written out as one
record update; from that a run of ticks down to the timeout, and the run of TX_SENDs that resends the window. -/

namespace Sys2Proof.Machine

open Sys2Proof.Claims

/-! ## TX_START (R170) -/

theorem enterSending_eq (s : State) :
    enterSending s =
      { s with phase := if s.txTotal = 0 then .sendDone else .sending,
               irqStatus := if s.txTotal = 0 then s.irqStatus ||| 0x01 else s.irqStatus,
               events := if s.txTotal = 0 then s.events ++ [⟨.txDone, none⟩] else s.events } := by
  unfold enterSending
  split <;> rfl

/-- TX_START is done at once exactly with the empty stream (R157, R170). -/
theorem txStart_eq (s : State) :
    txStart s =
      { s with txTotal := totalPkts s.txLen, txBase := 0, txNext := 0, tmrAct := false, tmrCnt := 0, rflag := 0x00,
               txFrames := 0, rxFrames := 0, timeouts := 0,
               phase := if s.txLen = 0 then .sendDone else .sending,
               irqStatus := if s.txLen = 0 then s.irqStatus ||| 0x01 else s.irqStatus,
               events := if s.txLen = 0 then s.events ++ [⟨.txDone, none⟩] else s.events,
               lastOp := 0x01 } := by
  have hempty : (openWindow s).txTotal = 0 ↔ s.txLen = 0 := totalPkts_eq_zero_iff s.txLen
  rw [txStart, enterSending_eq]
  simp only [hempty]
  rfl

theorem exec_cmdTxStart_of_mayStartTx {s : State} (h : s.mayStartTx = true) :
    exec .cmdTxStart s = .next (txStart (respond .writeDone s)) :=
  if_pos h

theorem exec_cmdTxStart_of_not_mayStartTx {s : State} (h : ¬ s.mayStartTx = true) :
    exec .cmdTxStart s = .next (refusedCommand (some 1) s) :=
  if_neg h

/-! ## TX_SEND (R171, R172) -/

theorem sendFrame_eq (f : Frame) (s : State) :
    sendFrame f s =
      { s with linkOut := s.linkOut ++ [f], txFrames := s.txFrames + 1, txNext := s.txNext + 1,
               tmrAct := if s.txBase = s.txNext then true else s.tmrAct,
               tmrCnt := if s.txBase = s.txNext then s.rto else s.tmrCnt, lastOp := 0x10 } := by
  unfold sendFrame
  dsimp only
  split <;> rfl

theorem lowByte_bool (b : Bool) : lowByte (b.toNat % 2) = if b then 0x01 else 0x00 := by
  cases b <;> rfl

/-- The frame that TX_SEND's Encode answers, its header bytes written out (R171). -/
theorem headerOf_dataPacket_append (s : State) (payload : List Byte) :
    headerOf (dataPacket s s.txNext payload) ++ (dataPacket s s.txNext payload).payload = dataFrame s payload := by
  simp only [headerOf, dataPacket, lowByte_toNat, lowByte_bool]
  rfl

theorem txSend_of_readBytes_ok {s : State} {payload : List Byte}
    (h : readBytes .txbuf s.txbuf (fragOff s.txNext).toNat (fragLen s.txLen s.txNext) = .ok payload) :
    txSend s = .next (sendFrame (dataFrame s payload) s) := by
  have hlen : payload.length ≤ 64 := by
    rw [((readBytes_ok_iff _ _ _ _ _).1 h).1]
    exact Nat.min_le_left _ _
  rw [txSend, h, ← headerOf_dataPacket_append]
  exact withEncoded_ok _ hlen

/-- TX_SEND where it is enabled and its fragment is written. -/
theorem exec_txSend_of_written {s : State} {payload : List Byte} (h : MaySend s)
    (hlen : payload.length = (fragmentAt s).2)
    (hread : ∀ k < payload.length, Memory.read s.txbuf ((fragmentAt s).1 + k) = payload[k]?) :
    exec .txSend s = .next (sendFrame (dataFrame s payload) s) := by
  have hok : readBytes .txbuf s.txbuf (fragOff s.txNext).toNat (fragLen s.txLen s.txNext) = .ok payload := by
    rw [fragOff_toNat]
    exact (readBytes_ok_iff _ _ _ _ _).2 ⟨hlen, fun k hk => hread k (hlen ▸ hk)⟩
  exact (execTxSend_of_enabled h).trans (txSend_of_readBytes_ok hok)

/-! ## The acknowledgment listener (R173, R174, R175, R179) -/

/-- Of a packet the sender asks only whether its byte 3 is TX_BASE's low byte (R173). -/
theorem classifyFrame_of_sending {s : State} {f : Frame} (hp : s.phase = .sending) (hf : IsPacket f) :
    classifyFrame s f = if frameAck f = seqOf s.txBase then .ackAccept else .ackIgnore := by
  have hrun : s.stopped = false := State.stopped_of_running (.inl hp)
  simp [classifyFrame, hrun, hp, (classOf_packet_iff f).2 hf, ackMatch, seqEq]

theorem classifyFrame_of_closeMarker {s : State} (hp : s.phase = .sending) : classifyFrame s [] = .sndPeerClosed := by
  have hrun : s.stopped = false := State.stopped_of_running (.inl hp)
  simp [classifyFrame, hrun, hp, (classOf_closeMarker_iff []).2 rfl]

section Head

variable {s : State} {f : Frame} {rest : List Frame} (hl : s.linkIn = f :: rest)
include hl

/-- An operation that does not wait for `ready` acts on the state with its frame taken off link-in and counted. -/
theorem onHeadFrame_of_head {i : Instr} (effect : Frame → State → Result) (hc : classifyFrame s f = i)
    (hi : needsReady i = false) :
    onHeadFrame i effect s = effect f { s with linkIn := rest, rxFrames := s.rxFrames + 1 } := by
  rw [onHeadFrame_of_enabled effect hl hc (by simp [hi]), consume, hl]
  rfl

theorem exec_ackAccept_of_head (hc : classifyFrame s f = .ackAccept) :
    exec .ackAccept s = .next (ackAccept { s with linkIn := rest, rxFrames := s.rxFrames + 1 }) :=
  onHeadFrame_of_head hl (fun _ t => .next (ackAccept t)) hc rfl

theorem exec_ackIgnore_of_head (hc : classifyFrame s f = .ackIgnore) :
    exec .ackIgnore s = .next { s with linkIn := rest, rxFrames := s.rxFrames + 1, lastOp := 0x12 } :=
  onHeadFrame_of_head hl (fun _ t => .next (recordOp 0x12 t)) hc rfl

theorem exec_sndPeerClosed_of_head (hc : classifyFrame s f = .sndPeerClosed) :
    exec .sndPeerClosed s =
      .next (recordOp 0x16 (raise .peerClosed none { s with linkIn := rest, rxFrames := s.rxFrames + 1 })) :=
  onHeadFrame_of_head hl (fun _ t => .next (recordOp 0x16 (raise .peerClosed none t))) hc rfl

end Head

/-- What a packet leaves depends on nothing of it but its byte 3 (R173). -/
theorem exec_classifyFrame_of_sending {s : State} {f : Frame} (rest : List Frame) (hp : s.phase = .sending)
    (hf : IsPacket f) :
    exec (classifyFrame s f) { s with linkIn := f :: rest } = .next
      (if frameAck f = seqOf s.txBase then ackAccept { s with linkIn := rest, rxFrames := s.rxFrames + 1 }
        else { s with linkIn := rest, rxFrames := s.rxFrames + 1, lastOp := 0x12 }) := by
  have hc := classifyFrame_of_sending hp hf
  split at hc
  · next hmatch =>
    rw [hc, if_pos hmatch]
    exact exec_ackAccept_of_head (s := { s with linkIn := f :: rest }) rfl hc
  · next hother =>
    rw [hc, if_neg hother]
    exact exec_ackIgnore_of_head (s := { s with linkIn := f :: rest }) rfl hc

theorem raiseNext_eq (s : State) :
    raiseNext s = { s with txNext := if s.txNext.toNat < s.txBase.toNat then s.txBase else s.txNext } := by
  have hult : s.txNext.ult s.txBase = true ↔ s.txNext.toNat < s.txBase.toNat := decide_eq_true_iff
  simp only [raiseNext, hult]
  split <;> rfl

theorem retimeWindow_eq (s : State) :
    retimeWindow s =
      { s with tmrAct := if s.txBase = s.txNext then false else true,
               tmrCnt := if s.txBase = s.txNext then 0 else s.rto } := by
  unfold retimeWindow
  split <;> rfl

theorem finishSending_eq (s : State) :
    finishSending s =
      { s with phase := if s.txBase = s.txTotal then .sendDone else s.phase,
               irqStatus := if s.txBase = s.txTotal then s.irqStatus ||| 0x01 else s.irqStatus,
               events := if s.txBase = s.txTotal then s.events ++ [⟨.txDone, none⟩] else s.events } := by
  unfold finishSending
  split <;> rfl

/-- ACK_ACCEPT's four updates one after the other, with TX_NEXT as the late ack leaves it (R174). -/
theorem ackAccept_eq (s : State) {next : BitVec 16}
    (hnext : next = if s.txNext.toNat < (s.txBase + 1).toNat then s.txBase + 1 else s.txNext) :
    ackAccept s =
      { s with rflag := clearFlag s.rflag s.txBase.toNat, txBase := s.txBase + 1, txNext := next,
               tmrAct := if s.txBase + 1 = next then false else true,
               tmrCnt := if s.txBase + 1 = next then 0 else s.rto,
               phase := if s.txBase + 1 = s.txTotal then .sendDone else s.phase,
               irqStatus := if s.txBase + 1 = s.txTotal then s.irqStatus ||| 0x01 else s.irqStatus,
               events := if s.txBase + 1 = s.txTotal then s.events ++ [⟨.txDone, none⟩] else s.events,
               lastOp := 0x11 } := by
  rw [ackAccept, finishSending_eq, retimeWindow_eq, raiseNext_eq, hnext]
  rfl

/-! ## The timer (R176, R177) -/

theorem exec_tickCount_of_runs {s : State} (hr : TimerRuns s) (hc : 1 < s.tmrCnt.toNat) :
    exec .tickCount s = .next { s with tmrCnt := s.tmrCnt - 1 } :=
  if_pos ((classifyTick_eq_tickCount_iff s).2 ⟨hr, hc⟩)

theorem exec_timerExpire_of_runs {s : State} (hr : TimerRuns s) (hc : s.tmrCnt.toNat ≤ 1) :
    exec .timerExpire s = .next (timerExpire s) :=
  if_pos ((classifyTick_eq_timerExpire_iff s).2 ⟨hr, hc⟩)

theorem step_tick_of_counting {s : State} {rest : List Turn} (ha : s.agenda = .tick :: rest) (hr : TimerRuns s)
    (hc : 1 < s.tmrCnt.toNat) : step s = .next { s with agenda := rest, tmrCnt := s.tmrCnt - 1 } := by
  obtain ⟨-, hcount, -⟩ := Proofs.aTickRunsTheOperationItEnables s rest ha
  exact (hcount hr hc).trans (exec_tickCount_of_runs hr hc)

theorem step_tick_of_expiring {s : State} {rest : List Turn} (ha : s.agenda = .tick :: rest) (hr : TimerRuns s)
    (hc : s.tmrCnt.toNat ≤ 1) : step s = .next (timerExpire { s with agenda := rest }) := by
  obtain ⟨hexpire, -⟩ := Proofs.aTickRunsTheOperationItEnables s rest ha
  exact (hexpire hr hc).trans (exec_timerExpire_of_runs hr hc)

/-- The flags that TIMER_EXPIRE leaves: those set before, and those of the outstanding packets (R177). -/
theorem timerExpire_flag_iff (s : State) {j : Nat} (hj : j < 8) :
    (timerExpire s).rflag.getLsbD j = true ↔
      s.rflag.getLsbD j = true ∨ ∃ k, s.txBase.toNat ≤ k ∧ k < s.txNext.toNat ∧ k % 8 = j := by
  have hrange : ∀ k, s.txBase.toNat ≤ k →
      (k < s.txBase.toNat + (s.txNext.toNat - s.txBase.toNat) ↔ k < s.txNext.toNat) := by omega
  refine (setFlags_getLsbD_iff _ _ _ hj).trans (or_congr_right (exists_congr fun k => ?_))
  exact and_congr_right fun hge => and_congr_left' (hrange k hge)

/-! ## A run of ticks (R176, R177) -/

theorem run_succ_of_run_next (M : Host.Core) {k : Nat} {s t : M.State} (h : M.run k s = .next t) :
    M.run (k + 1) s = M.step t := by
  induction k generalizing s with
  | zero =>
    cases h
    rw [Host.Core.run]
    cases M.step t <;> rfl
  | succ k ih =>
    cases hs : M.step s with
    | next u =>
      rw [run_succ_of_next M _ hs] at h ⊢
      exact ih h
    | fault | refused => simp [Host.Core.run, hs] at h

/-- `s` with `m` on the down-counter and as many ticks to come. -/
def State.withTicks (s : State) (rest : List Turn) (m : Nat) : State :=
  { s with agenda := List.replicate m .tick ++ rest, tmrCnt := BitVec.ofNat 32 m }

theorem withTicks_tmrCnt_toNat (s : State) (rest : List Turn) {m : Nat} (hm : m < 2 ^ 32) :
    (s.withTicks rest m).tmrCnt.toNat = m :=
  (BitVec.toNat_ofNat m 32).trans (Nat.mod_eq_of_lt hm)

/-- Above 1 a tick counts down. -/
theorem step_withTicks {s : State} (rest : List Turn) {m : Nat} (hr : TimerRuns s) (hpos : 1 ≤ m)
    (hm : m + 1 < 2 ^ 32) : step (s.withTicks rest (m + 1)) = .next (s.withTicks rest m) := by
  have hcnt : 1 < (s.withTicks rest (m + 1)).tmrCnt.toNat := by
    rw [withTicks_tmrCnt_toNat s rest hm]
    omega
  have hdec : BitVec.ofNat 32 (m + 1) - 1 = BitVec.ofNat 32 m := by simp [BitVec.ofNat_add]
  calc step (s.withTicks rest (m + 1))
      = .next { s.withTicks rest m with tmrCnt := BitVec.ofNat 32 (m + 1) - 1 } := step_tick_of_counting rfl hr hcnt
    _ = .next (s.withTicks rest m) := by rw [hdec]; rfl

theorem run_withTicks {s : State} (rest : List Turn) {n : Nat} (hr : TimerRuns s) (hn : n < 2 ^ 32) :
    ∀ k < n, Sys2Proof.core.run k (s.withTicks rest n) = .next (s.withTicks rest (n - k)) := by
  intro k hk
  induction k with
  | zero => rfl
  | succ k ih =>
    have hleft : n - k = n - (k + 1) + 1 := by omega
    have hrun := ih (by omega)
    rw [hleft] at hrun
    exact (run_succ_of_run_next Sys2Proof.core hrun).trans (step_withTicks rest hr (by omega) (by omega))

theorem run_withTicks_expires {s : State} (rest : List Turn) {n : Nat} (hr : TimerRuns s) (hpos : 1 ≤ n)
    (hn : n < 2 ^ 32) :
    Sys2Proof.core.run n (s.withTicks rest n) = .next (timerExpire { s with agenda := rest, tmrCnt := 1 }) := by
  obtain ⟨k, rfl⟩ : ∃ k, n = k + 1 := ⟨n - 1, by omega⟩
  have hrun := run_withTicks rest hr hn k (by omega)
  rw [Nat.add_sub_cancel_left] at hrun
  exact (run_succ_of_run_next Sys2Proof.core hrun).trans
    (step_tick_of_expiring (s := s.withTicks rest 1) rfl hr (Nat.le_refl 1))

/-! ## A run of TX_SENDs (R171, R172) -/

/-- Byte 6 of the frame of packet `i` (R91, R171). -/
def State.flagByte (s : State) (i : Nat) : Byte := if s.rflag.getLsbD (i % 8) then 0x01 else 0x00

/-- `f` is the frame of packet `i`: its header from HDR_CFG with this flag, and its fragment of TXBUF (R158, R171). -/
def State.IsFrameOf (s : State) (i : Nat) (flag : Byte) (f : Frame) : Prop :=
  ∃ payload : List Byte,
    payload.length = min 64 (s.txLen.toNat - 64 * i) ∧
    (∀ j < payload.length, Memory.read s.txbuf (64 * i + j) = payload[j]?) ∧
    f = [s.hdrCfg.extractLsb' 0 8, s.hdrCfg.extractLsb' 8 8, BitVec.ofNat 8 i, 0x00, s.hdrCfg.extractLsb' 16 8,
         s.hdrCfg.extractLsb' 24 8, flag] ++ payload

/-- The next `n` packets are inside the window and the stream, the stream is written, and link-out is ready: what
keeps TX_SEND enabled `n` times over. -/
structure State.MaySendTimes (s : State) (n : Nat) : Prop where
  sending : s.phase = .sending
  ready : s.ready = true
  base_le_next : s.txBase.toNat ≤ s.txNext.toNat
  fits : s.txNext.toNat + n ≤ s.txBase.toNat + 8
  le_total : s.txNext.toNat + n ≤ s.txTotal.toNat
  total_eq : s.txTotal = totalPkts s.txLen
  len_le : s.txLen.toNat ≤ 65536
  written : ∀ a < s.txLen.toNat, (Memory.read s.txbuf a).isSome = true

theorem State.MaySendTimes.maySend {s : State} {n : Nat} (h : s.MaySendTimes (n + 1)) : MaySend s := by
  obtain ⟨hp, hready, hle, hfits, htotal, -⟩ := h
  have hdist := seqDist_seqOf_toNat hle (by omega)
  have hspace : (seqDist (seqOf s.txNext) (seqOf s.txBase)).toNat < 8 := by omega
  exact ⟨hp, hspace, by omega, hready⟩

theorem State.MaySendTimes.txNext_add_one {s : State} {n : Nat} (h : s.MaySendTimes (n + 1)) :
    (s.txNext + 1).toNat = s.txNext.toNat + 1 := by
  have htotal := h.le_total
  bv_omega

theorem State.MaySendTimes.sendFrame {s : State} {n : Nat} (f : Frame) (h : s.MaySendTimes (n + 1)) :
    (sendFrame f s).MaySendTimes n := by
  have hnext := h.txNext_add_one
  obtain ⟨hp, hready, hle, hfits, htotal, hpkts, hlen, hwritten⟩ := h
  rw [sendFrame_eq]
  exact ⟨hp, hready, by dsimp only; omega, by dsimp only; omega, by dsimp only; omega, hpkts, hlen, hwritten⟩

/-- Bytes that all hold a value can be listed. -/
theorem exists_bytes_of_written {m : Memory} {off n : Nat} (h : ∀ k < n, (Memory.read m (off + k)).isSome = true) :
    ∃ bs : List Byte, bs.length = n ∧ ∀ k < n, Memory.read m (off + k) = bs[k]? := by
  cases hread : readBytes .txbuf m off n with
  | ok bs => exact ⟨bs, (readBytes_ok_iff _ _ _ _ _).1 hread⟩
  | error f =>
    obtain ⟨k, hk, -, hnone, -⟩ := readBytes_error hread
    simpa [hnone] using h k hk

/-- With the stream written, TX_SEND sends the frame of packet TX_NEXT. -/
theorem State.MaySendTimes.exec_txSend {s : State} {n : Nat} (h : s.MaySendTimes (n + 1)) :
    ∃ f, s.IsFrameOf s.txNext.toNat (s.flagByte s.txNext.toNat) f ∧
      exec .txSend s = .next (Machine.sendFrame f s) := by
  have hfrag : s.txNext.toNat < (s.txLen.toNat + 63) / 64 := by
    rw [← totalPkts_toNat, ← h.total_eq]
    have htotal := h.le_total
    omega
  have hoff : (fragmentAt s).1 = 64 * s.txNext.toNat := by
    have hlen := h.len_le
    exact Nat.mod_eq_of_lt (by omega)
  obtain ⟨payload, hlen, hread⟩ := exists_bytes_of_written (m := s.txbuf) (off := 64 * s.txNext.toNat)
    (n := min 64 (s.txLen.toNat - 64 * s.txNext.toNat)) fun k hk => h.written _ (by omega)
  refine ⟨dataFrame s payload, ⟨payload, hlen, hlen ▸ hread, ?_⟩, ?_⟩
  · rw [BitVec.ofNat_toNat]
    rfl
  · exact exec_txSend_of_written h.maySend hlen (by rw [hoff, hlen]; exact hread)

theorem State.MaySendTimes.step_txSend {s : State} {n : Nat} {rest : List Turn} (h : s.MaySendTimes (n + 1))
    (ha : s.agenda = .input (.op 0x10) :: rest) :
    ∃ f, s.IsFrameOf s.txNext.toNat (s.flagByte s.txNext.toNat) f ∧
      step s = .next (Machine.sendFrame f { s with agenda := rest }) := by
  obtain ⟨f, hframe, hexec⟩ := exec_txSend (s := { s with agenda := rest }) { h with }
  exact ⟨f, hframe, (Proofs.stepRunsTheDecodedInstruction s _ rest .txSend ha rfl).trans hexec⟩

/-- `n` TX_SENDs send the next `n` packets in order: each leaves enabled those that follow, and leaves alone all that
their frames are built from. -/
theorem run_txSends {s : State} {n : Nat} {rest : List Turn} (h : s.MaySendTimes n)
    (ha : s.agenda = List.replicate n (.input (.op 0x10)) ++ rest) :
    ∃ t frames, Sys2Proof.core.run n s = .next t ∧ t.agenda = rest ∧ t.linkOut = s.linkOut ++ frames ∧
      t.txBase = s.txBase ∧ t.txNext.toNat = s.txNext.toNat + n ∧
      List.Forall₂ (fun i => s.IsFrameOf i (s.flagByte i)) (List.range' s.txNext.toNat n) frames := by
  induction n generalizing s with
  | zero => exact ⟨s, [], rfl, ha, (List.append_nil _).symm, rfl, rfl, .nil⟩
  | succ n ih =>
    obtain ⟨f, hframe, hstep⟩ := h.step_txSend ha
    have hsent := State.MaySendTimes.sendFrame (s := { s with agenda := List.replicate n (.input (.op 0x10)) ++ rest })
      f { h with }
    have hnext := h.txNext_add_one
    rw [sendFrame_eq] at hstep hsent
    obtain ⟨t, frames, hrun, hagenda, hout, hbase, hnext', hframes⟩ := ih hsent rfl
    refine ⟨t, f :: frames, (core_run_succ hstep).trans hrun, hagenda, ?_, hbase, ?_, ?_⟩
    · rw [hout]
      exact List.append_assoc _ _ _
    · rw [hnext']
      dsimp only
      omega
    · rw [List.range'_succ, ← hnext]
      exact .cons hframe hframes

/-! ## The timeout (R177) -/

/-- After the timeout the outstanding packets may all be sent again. -/
theorem State.Inv.timerExpire_maySendTimes {s : State} {n : Nat} (hinv : s.Inv) (hr : TimerRuns s)
    (hready : s.ready = true) (hwritten : ∀ a < s.txLen.toNat, (Memory.read s.txbuf a).isSome = true)
    (hn : s.txNext.toNat = s.txBase.toNat + n) : (timerExpire s).MaySendTimes n := by
  obtain ⟨hlegal, -, hwin, -⟩ := hinv
  obtain ⟨-, -, hmax, -⟩ := hlegal
  obtain ⟨hp, -⟩ := hr
  obtain ⟨-, hnext, hsize, -, -, htotal, hlen⟩ := hwin hp
  have hfits : s.txBase.toNat + n ≤ s.txBase.toNat + 8 := by omega
  exact ⟨hp, hready, le_refl _, hfits, hn ▸ hnext, htotal, hlen.trans hmax, hwritten⟩

/-- After the timeout the frame of an outstanding packet carries the retransmit flag. -/
theorem flagByte_timerExpire {s : State} {i : Nat} (hge : s.txBase.toNat ≤ i) (hlt : i < s.txNext.toNat) :
    (timerExpire s).flagByte i = 0x01 :=
  if_pos ((timerExpire_flag_iff s (Nat.mod_lt i (by decide))).2 (.inr ⟨i, hge, hlt, rfl⟩))

end Sys2Proof.Machine

namespace Sys2Proof.Proofs

open Sys2Proof Sys2Proof.Machine Sys2Proof.Claims

/-- Settles O59: the timeout rewinds TX_NEXT and flags the window, and each TX_SEND sends the packet of TX_NEXT. -/
theorem aTimeoutResendsTheWholeWindow : Obligations.ATimeoutResendsTheWholeWindow := by
  intro s n rest hinv hr hcnt hready hwritten hn ha
  have hexpire := step_tick_of_expiring ha hr hcnt
  have hsend := State.Inv.timerExpire_maySendTimes
    (s := { s with agenda := List.replicate n (.input (.op 0x10)) ++ rest }) hinv hr hready hwritten hn
  obtain ⟨t, frames, hrun, hagenda, hout, hbase, hnext, hframes⟩ := run_txSends hsend rfl
  have hlen : frames.length = n := by rw [← hframes.length_eq, List.length_range']
  refine ⟨t, frames, (core_run_succ hexpire).trans hrun, hagenda, hout, hlen, hbase,
    BitVec.eq_of_toNat_eq (hnext.trans hn.symm), fun k hk => ?_⟩
  have hframe := hframes.get (i := k) (by rwa [List.length_range']) (hlen.symm ▸ hk)
  simp only [List.get_eq_getElem, List.getElem_range', Nat.one_mul] at hframe
  have hlt : s.txBase.toNat + k < s.txNext.toNat := by omega
  -- the frames were built after the tick was taken; nothing they are built from depends on the agenda
  change s.IsFrameOf (s.txBase.toNat + k) ((timerExpire s).flagByte (s.txBase.toNat + k)) frames[k] at hframe
  rw [flagByte_timerExpire (Nat.le_add_right _ k) hlt] at hframe
  obtain ⟨payload, hpay, hread, hf⟩ := hframe
  exact ⟨payload, hpay, hread, (List.getElem?_eq_getElem _).trans (congrArg some hf)⟩

/-- Settles O58: above 1 each tick takes one off the count, and the tick at 1 expires the timer. -/
theorem theNthTickExpiresTheTimer : Obligations.TheNthTickExpiresTheTimer := by
  rintro s n rest hr hpos rfl ha
  have hs : s = s.withTicks rest s.tmrCnt.toNat := by
    rw [State.withTicks, ← ha, BitVec.ofNat_toNat, BitVec.setWidth_eq]
  have hlt : s.tmrCnt.toNat < 2 ^ 32 := s.tmrCnt.isLt
  refine ⟨fun k hk => ?_, timerExpire { s with agenda := rest, tmrCnt := 1 }, ?_, rfl, rfl, rfl, rfl, rfl⟩
  · exact (congrArg (Sys2Proof.core.run k) hs).trans (run_withTicks rest hr hlt k hk)
  · exact (congrArg (Sys2Proof.core.run s.tmrCnt.toNat) hs).trans (run_withTicks_expires rest hr hpos hlt)

/-- Settles O56: both packets match TX_BASE or neither does, and what ACK_ACCEPT and ACK_IGNORE leave does not depend
on the frame taken. -/
theorem theSenderReadsOnlyTheAckByte : Obligations.TheSenderReadsOnlyTheAckByte := by
  intro s f g rest hp hf hg hack
  have hack' : frameAck f = frameAck g := hack
  rw [exec_classifyFrame_of_sending rest hp hf, exec_classifyFrame_of_sending rest hp hg,
    classifyFrame_of_sending hp hf, classifyFrame_of_sending hp hg, hack']
  exact ⟨rfl, rfl⟩

/-- Settles O19, by the condition of R247 on TX_START. -/
theorem txStartOpensTheWindowOrIsIllegal : Obligations.TxStartOpensTheWindowOrIsIllegal := by
  intro s
  have hmay : s.mayStartTx = true ↔ Stopped s ∧ s.txLen.toNat ≤ s.params.txbufBytes := by
    rw [State.mayStartTx_iff, State.stopped_iff]
  refine ⟨fun hs hlen => ?_, fun hno => exec_cmdTxStart_of_not_mayStartTx (hmay.not.2 hno)⟩
  rw [exec_cmdTxStart_of_mayStartTx (hmay.2 ⟨hs, hlen⟩), txStart_eq]
  rfl

/-- Settles O30: the fragment read becomes the payload of the frame emitted. -/
theorem txSendEmitsTheNextPacket : Obligations.TxSendEmitsTheNextPacket := by
  intro s payload hsend hlen hread
  rw [exec_txSend_of_written hsend hlen hread, sendFrame_eq]

/-- Settles O31: Classify_frame enables ACK_ACCEPT for this packet, and its four updates are the one stated. -/
theorem ackAcceptAdvancesTheWindowByOne : Obligations.AckAcceptAdvancesTheWindowByOne := by
  intro s f rest next hp hl hf hack hnext
  have hc := (classifyFrame_of_sending hp hf).trans (if_pos hack)
  rw [exec_ackAccept_of_head hl hc, ackAccept_eq { s with linkIn := rest, rxFrames := s.rxFrames + 1 } hnext]
  simp only [hp]
  rfl

/-- Settles O32: Classify_frame enables ACK_IGNORE for this packet. -/
theorem otherAcksAreIgnored : Obligations.OtherAcksAreIgnored :=
  fun _ _ _ hp hl hf hack => exec_ackIgnore_of_head hl ((classifyFrame_of_sending hp hf).trans (if_neg hack))

/-- Settles O33: Classify_tick enables TICK_COUNT above 1, and TICK_IDLE has no update. -/
theorem ticksCountDownOrChangeNothing : Obligations.TicksCountDownOrChangeNothing :=
  fun _ => ⟨exec_tickCount_of_runs, rfl⟩

/-- Settles O34: the flags set are those of the run of packets from TX_BASE to TX_NEXT - 1. -/
theorem timerExpireMarksAndRewindsTheWindow : Obligations.TimerExpireMarksAndRewindsTheWindow :=
  fun s hr hcnt => ⟨(timerExpire s).rflag, exec_timerExpire_of_runs hr hcnt, fun _ => timerExpire_flag_iff s⟩

/-- Settles O35: Classify_frame enables SND_PEER_CLOSED for the close marker. -/
theorem peerClosedLeavesTheSenderRunning : Obligations.PeerClosedLeavesTheSenderRunning :=
  fun _ _ hp hl => exec_sndPeerClosed_of_head hl (classifyFrame_of_closeMarker hp)

end Sys2Proof.Proofs
end

section
/-! The receiver of spec/43_receiver.md: RX_START and the ack it builds (R210, R211), the operation a head frame enables
while RECEIVING (R212 to R214), Append as one record update (R215), and from that what RX_ACCEPT, RX_DUPACK and
RX_PEER_CLOSE leave; then which instructions may change the reassembly. -/

namespace Sys2Proof.Machine

open Sys2Proof.Claims

/-! ## RX_START and the ack frame (R210, R211) -/

/-- The ack frame of the block, its header bytes written out (R211). -/
theorem ackFrame_eq (s : State) (n : Byte) : ackFrame s n = ackFrameFor s n := by
  simp only [ackFrame, headerOf, ackPacket, lowByte_toNat]
  rfl

theorem rxStart_eq (s : State) :
    rxStart s = .next
      { s with rxExpected := 0, rxLen := 0, la := some (ackFrameFor s 0xFF), txFrames := 0, rxFrames := 0,
               timeouts := 0, phase := .receiving, lastOp := 0x02 } := by
  rw [rxStart, withEncoded_ackPacket, ackFrame_eq]
  rfl

theorem exec_cmdRxStart_of_stopped {s : State} (hs : Stopped s) :
    exec .cmdRxStart s = rxStart (respond .writeDone s) :=
  if_pos ((State.stopped_iff s).2 hs)

theorem exec_cmdRxStart_of_not_stopped {s : State} (hs : ¬ Stopped s) :
    exec .cmdRxStart s = .next (refusedCommand (some 2) s) :=
  if_neg ((State.stopped_iff s).not.2 hs)

/-! ## What a head frame enables while RECEIVING (R99, R212, R213, R214) -/

/-- Of a packet the receiver asks only whether its byte 2 is RX_EXPECTED. -/
theorem classifyFrame_of_receiving {s : State} {f : Frame} (hp : s.phase = .receiving) (hf : IsPacket f) :
    classifyFrame s f = if frameSeq f = s.rxExpected then .rxAccept else .rxDupack := by
  have hrun : s.stopped = false := State.stopped_of_running (.inr hp)
  simp [classifyFrame, hrun, hp, (classOf_packet_iff f).2 hf, seqEq]

theorem classifyFrame_nil_of_receiving {s : State} (hp : s.phase = .receiving) : classifyFrame s [] = .rxPeerClose := by
  have hrun : s.stopped = false := State.stopped_of_running (.inr hp)
  simp [classifyFrame, hrun, hp, (classOf_closeMarker_iff []).2 rfl]

/-! ## Append and RX_ACCEPT (R212, R215) -/

/-- Append with as many bytes stored as fit; a byte was dropped exactly where fewer were stored than there are. -/
theorem append_eq {s : State} (payload : List Byte) {stored : Nat} (hlimit : s.params.rxbufBytes ≤ 65536)
    (hlen : s.rxLen.toNat ≤ s.params.rxbufBytes)
    (hstored : stored = min payload.length (s.params.rxbufBytes - s.rxLen.toNat)) :
    append payload s =
      { s with rxbuf := writeBytes s.rxbuf s.rxLen.toNat (payload.take stored),
               rxLen := BitVec.ofNat 17 (s.rxLen.toNat + stored),
               irqStatus := if stored < payload.length then s.irqStatus ||| 0x10 else s.irqStatus,
               events := if stored < payload.length then s.events ++ [⟨.rxOverflow, none⟩] else s.events } := by
  obtain ⟨hbuf, hlen', hdrop⟩ := appendBytes_spec hlimit payload s.rxbuf s.rxLen hlen
  have htake : payload.take (s.params.rxbufBytes - s.rxLen.toNat) = payload.take stored := by
    rw [hstored, Nat.min_comm, ← List.take_eq_take_min]
  have hrxLen : (appendBytes s.params.rxbufBytes payload s.rxbuf s.rxLen).2.1 =
      BitVec.ofNat 17 (s.rxLen.toNat + stored) := by
    refine BitVec.eq_of_toNat_eq ?_
    rw [hlen', BitVec.toNat_ofNat]
    omega
  have hlost : s.params.rxbufBytes < s.rxLen.toNat + payload.length ↔ stored < payload.length := by omega
  rw [htake] at hbuf
  rw [hlost] at hdrop
  unfold append
  simp only [hbuf, hrxLen, hdrop]
  split <;> rfl

/-- What stands at every offset after `stored` bytes of `bs` were written from `off` on. -/
theorem read_writeBytes_take (m : Memory) (off : Nat) {bs : List Byte} {stored : Nat} (h : stored ≤ bs.length)
    (a : Nat) :
    Memory.read (writeBytes m off (bs.take stored)) a =
      if off ≤ a ∧ a < off + stored then bs[a - off]? else Memory.read m a := by
  rw [read_writeBytes, List.length_take_of_le h]
  split
  · next hin => exact List.getElem?_take_of_lt (by omega)
  · rfl

/-- Of its frame RX_ACCEPT takes the payload only. -/
theorem rxAccept_eq (f : Frame) (s : State) :
    rxAccept f s = .next (recordOp 0x20
      { emit (ackFrameFor s s.rxExpected) (append (framePayload f) s) with
        rxExpected := s.rxExpected + 1, la := some (ackFrameFor s s.rxExpected) }) := by
  rw [rxAccept, withEncoded_ackPacket, ackFrame_eq]
  rfl

/-! ## The receiver's three operations on their head frame (R212, R213, R214) -/

section Head

variable {s : State} {f : Frame} {rest : List Frame} (hl : s.linkIn = f :: rest)
include hl

/-- With link-out ready every operation acts on the state with its frame taken off link-in and counted. -/
theorem onHeadFrame_of_ready {i : Instr} (effect : Frame → State → Result) (hready : s.ready = true)
    (hc : classifyFrame s f = i) :
    onHeadFrame i effect s = effect f { s with linkIn := rest, rxFrames := s.rxFrames + 1 } := by
  rw [onHeadFrame_of_enabled effect hl hc fun _ => hready, consume, hl]
  rfl

theorem exec_rxAccept_of_head (hready : s.ready = true) (hc : classifyFrame s f = .rxAccept) :
    exec .rxAccept s = rxAccept f { s with linkIn := rest, rxFrames := s.rxFrames + 1 } :=
  onHeadFrame_of_ready hl rxAccept hready hc

theorem exec_rxDupack_of_head (hready : s.ready = true) (hc : classifyFrame s f = .rxDupack) :
    exec .rxDupack s = rxDupack { s with linkIn := rest, rxFrames := s.rxFrames + 1 } :=
  onHeadFrame_of_ready hl (fun _ t => rxDupack t) hready hc

theorem exec_rxPeerClose_of_head (hc : classifyFrame s f = .rxPeerClose) :
    exec .rxPeerClose s = .next (recordOp 0x22 (raise .rxDone none
      { s with linkIn := rest, rxFrames := s.rxFrames + 1, phase := .recvDone })) :=
  onHeadFrame_of_head hl (fun _ t => .next (recordOp 0x22 (raise .rxDone none { t with phase := .recvDone }))) hc rfl

end Head

theorem rxDupack_of_la {s : State} {a : Frame} (ha : s.la = some a) :
    rxDupack s = .next (recordOp 0x21 (emit a s)) := by
  rw [rxDupack, ha]

/-- What a packet leaves depends on nothing of it but its byte 2 and its payload (R212, R213). -/
theorem exec_classifyFrame_of_receiving {s : State} {f : Frame} (rest : List Frame) (hp : s.phase = .receiving)
    (hready : s.ready = true) (hf : IsPacket f) :
    exec (classifyFrame s f) { s with linkIn := f :: rest } =
      if frameSeq f = s.rxExpected then rxAccept f { s with linkIn := rest, rxFrames := s.rxFrames + 1 }
      else rxDupack { s with linkIn := rest, rxFrames := s.rxFrames + 1 } := by
  have hc := classifyFrame_of_receiving hp hf
  split at hc
  · next hmatch =>
    rw [hc, if_pos hmatch]
    exact exec_rxAccept_of_head (s := { s with linkIn := f :: rest }) rfl hready hc
  · next hother =>
    rw [hc, if_neg hother]
    exact exec_rxDupack_of_head (s := { s with linkIn := f :: rest }) rfl hready hc

/-! ## The reassembly (R212, R213) -/

/-- What the stream received so far is held in: RX_EXPECTED, RX_LEN and RXBUF. -/
structure Reassembly where
  rxExpected : Byte
  rxLen : BitVec 17
  rxbuf : Memory

def State.reassembly (s : State) : Reassembly where
  rxExpected := s.rxExpected
  rxLen := s.rxLen
  rxbuf := s.rxbuf

theorem txStart_reassembly (s : State) : (txStart s).reassembly = s.reassembly := by
  rw [txStart_eq]
  rfl

theorem sendFrame_reassembly (f : Frame) (s : State) : (sendFrame f s).reassembly = s.reassembly := by
  rw [sendFrame_eq]
  rfl

theorem ackAccept_reassembly (s : State) : (ackAccept s).reassembly = s.reassembly := by
  rw [ackAccept_eq s rfl]
  rfl

/-- A start clears the two registers, RX_ACCEPT takes a packet whose byte 2 is RX_EXPECTED and moves on by one, and no
other effect writes the reassembly. -/
theorem Effect.reassembly_cases {i : Instr} {s t : State} (h : Effect i s t) :
    t.reassembly = s.reassembly ∨ (t.reassembly = ⟨0, 0, s.rxbuf⟩ ∧ t.lastOp = 0x02) ∨
      (i = .rxAccept ∧ t.rxExpected = s.rxExpected + 1 ∧
        ∃ f rest, s.linkIn = f :: rest ∧ classOf f = .packet ∧ frameSeq f = s.rxExpected) := by
  cases h
  case rxStart => exact .inr (.inl ⟨rfl, rfl⟩)
  case rxAccept f rest hl hc =>
    obtain ⟨-, hpacket, hseq⟩ := classifyFrame_rxAccept hc
    exact .inr (.inr ⟨rfl, rfl, f, rest, hl, hpacket, hseq⟩)
  case txStart => exact .inl (txStart_reassembly _)
  case txSend => exact .inl (sendFrame_reassembly _ _)
  case ackAccept => exact .inl (ackAccept_reassembly _)
  all_goals exact .inl rfl

end Sys2Proof.Machine

namespace Sys2Proof.Proofs

open Sys2Proof Sys2Proof.Machine Sys2Proof.Claims

/-- Settles O47: Classify_frame enables RX_ACCEPT only for a packet whose byte 2 is RX_EXPECTED. -/
theorem reassemblyChangesOnlyOnAnExactMatch : Obligations.ReassemblyChangesOnlyOnAnExactMatch := by
  intro i s t h hne
  rcases (exec_effect h).reassembly_cases with hkept | ⟨hstart, hop⟩ | ⟨hi, hnext, f, rest, hl, hpacket, hseq⟩
  · have hexpected : t.rxExpected = s.rxExpected := congrArg Reassembly.rxExpected hkept
    have hlen : t.rxLen = s.rxLen := congrArg Reassembly.rxLen hkept
    have hbuf : t.rxbuf = s.rxbuf := congrArg Reassembly.rxbuf hkept
    simp [hexpected, hlen, hbuf] at hne
  · exact .inl ⟨congrArg Reassembly.rxExpected hstart, congrArg Reassembly.rxLen hstart,
      congrArg Reassembly.rxbuf hstart, hop⟩
  · exact .inr ⟨hi, hnext, f, rest, hl, (classOf_packet_iff f).1 hpacket, hseq⟩

/-- Settles O57: both packets match RX_EXPECTED or neither does, RX_ACCEPT takes of its frame the payload only, and
RX_DUPACK nothing. -/
theorem theReceiverReadsOnlySeqAndPayload : Obligations.TheReceiverReadsOnlySeqAndPayload := by
  intro s f g rest hp hready hf hg hseq hdrop
  have hseq' : frameSeq f = frameSeq g := hseq
  have hpay : framePayload f = framePayload g := by
    rw [framePayload_eq_drop hf.1, framePayload_eq_drop hg.1, hdrop]
  rw [exec_classifyFrame_of_receiving rest hp hready hf, exec_classifyFrame_of_receiving rest hp hready hg,
    classifyFrame_of_receiving hp hf, classifyFrame_of_receiving hp hg, rxAccept_eq, rxAccept_eq, hseq', hpay]
  exact ⟨rfl, rfl⟩

/-- Settles O20, by the condition of R247 on RX_START. -/
theorem rxStartBuildsTheInitialAckOrIsIllegal : Obligations.RxStartBuildsTheInitialAckOrIsIllegal := by
  refine fun s => ⟨fun hs => ?_, exec_cmdRxStart_of_not_stopped⟩
  rw [exec_cmdRxStart_of_stopped hs, rxStart_eq]
  rfl

/-- Settles O36: Classify_frame enables RX_ACCEPT for this packet, and Append writes the bytes that fit. -/
theorem rxAcceptAppendsAndAcknowledges : Obligations.RxAcceptAppendsAndAcknowledges := by
  intro s f rest stored hp hready hl hf hseq hlegal hlen hstored
  obtain ⟨-, -, -, -, hlimit, -⟩ := hlegal
  have hc := (classifyFrame_of_receiving hp hf).trans (if_pos hseq)
  have hpay : (f.drop 7).length = f.length - 7 := List.length_drop
  rw [← hpay] at hstored ⊢
  refine ⟨writeBytes s.rxbuf s.rxLen.toNat ((f.drop 7).take stored), ?_, fun a => ?_⟩
  · rw [exec_rxAccept_of_head hl hready hc, rxAccept_eq, framePayload_eq_drop hf.1,
      append_eq (s := { s with linkIn := rest, rxFrames := s.rxFrames + 1 }) (f.drop 7) hlimit hlen hstored]
    rfl
  · rw [read_writeBytes_take _ _ (hstored ▸ Nat.min_le_left _ _), List.getElem?_drop]

/-- Settles O37: Classify_frame enables RX_DUPACK for this packet, and the frame emitted is LA itself. -/
theorem rxDupackResendsTheLastAckVerbatim : Obligations.RxDupackResendsTheLastAckVerbatim := by
  intro s f a rest hp hready hl hf hseq ha
  have hc := (classifyFrame_of_receiving hp hf).trans (if_neg hseq)
  exact (exec_rxDupack_of_head hl hready hc).trans (rxDupack_of_la ha)

/-- Settles O38: Classify_frame enables RX_PEER_CLOSE for the close marker, and it does not wait for `ready`. -/
theorem rxPeerCloseEndsTheReceiver : Obligations.RxPeerCloseEndsTheReceiver :=
  fun _ _ hp hl => exec_rxPeerClose_of_head hl (classifyFrame_nil_of_receiving hp)

end Sys2Proof.Proofs
end

section
/-! The host bus of spec/44_host.md: the commands a write of CMD runs (R247 to R250), a register read and a register
write by the register its offset stands for (R241, R242), and the bytes a buffer access reads or stores (R243 to
R245). -/

namespace Sys2Proof.Machine

/-! ## Commands (R242, R247) -/

/-- Decoding a command word picks the row whose meaning is the write of that word to CMD (R95, R96, R247). -/
theorem exec_decodeCmd (w : Word) (s : State) : exec (decodeCmd w) s = writeCmd w s := by
  unfold decodeCmd
  split
  · next hw => obtain rfl : w = 0 := BitVec.eq_of_toNat_eq hw; rfl
  · next hw => obtain rfl : w = 1 := BitVec.eq_of_toNat_eq hw; rfl
  · next hw => obtain rfl : w = 2 := BitVec.eq_of_toNat_eq hw; rfl
  · next hw => obtain rfl : w = 3 := BitVec.eq_of_toNat_eq hw; rfl
  · rfl

theorem runCommand_of_gt_three {w : Word} (h : 3 < w.toNat) (s : State) :
    runCommand w s = .next (commandIllegal (some w.toNat) s) := by
  unfold runCommand
  split
  case h_5 => rfl
  all_goals omega

/-! ## Register accesses (R49, R241, R242) -/

theorem regAt_offset (r : Reg) : regAt r.offset = some r := (regAt_eq_some_iff _ r).2 rfl

theorem Reg.offset_aligned (r : Reg) : r.offset.toNat % 4 = 0 := by
  cases r <;> rfl

theorem Reg.offset_lt (r : Reg) : r.offset.toNat < 0x050 := by
  cases r <;> decide

theorem regAt_of_ge {off : BitVec 16} (h : 0x050 ≤ off.toNat) : regAt off = none := by
  cases hr : regAt off with
  | none => rfl
  | some r =>
    obtain rfl := (regAt_eq_some_iff off r).1 hr
    exact absurd h (Nat.not_le.2 r.offset_lt)

theorem regValueAt_offset (s : State) (r : Reg) : regValueAt s r.offset = regValue s r := by
  rw [regValueAt, regAt_offset]

theorem regValueAt_of_ge (s : State) {off : BitVec 16} (h : 0x050 ≤ off.toNat) : regValueAt s off = 0 := by
  rw [regValueAt, regAt_of_ge h]

theorem exec_regRead_offset (r : Reg) (s : State) :
    exec (.regRead r.offset) s = .next (respond (.readDone (regValue s r)) s) := by
  rw [exec_regRead r.offset_aligned, regValueAt_offset]

/-- The registers, in the order of their offsets (R49). -/
def Reg.all : List Reg :=
  [.ctrl, .cmd, .status, .irqStatus, .irqEnable, .hdrCfg, .ackFill, .rto, .timerCount, .txLen, .txTotal, .txBase,
   .txNext, .txRflag, .rxExpected, .rxLen, .rxLastack, .txFrames, .rxFrames, .timeouts]

/-- The encoding of STATE as a number (R21). -/
def Phase.number : Phase → Nat
  | .idle => 0
  | .sending => 1
  | .sendDone => 2
  | .receiving => 3
  | .recvDone => 4

/-- `regValue`, with the fields of STATUS added up at their places (R24). -/
def mapValue (s : State) : Reg → Word
  | .status => BitVec.ofNat 32 (256 * s.lastOp.toNat + (if s.tmrAct then 8 else 0) + s.phase.number)
  | r => regValue s r

/-- STATUS below LAST_OP is TIMER_ACTIVE and STATE, in the low byte (R24). -/
theorem statusWord_low (act : Bool) (p : Phase) :
    ∃ low < 2 ^ 8, (if act then 8 else 0) + p.number = low ∧
      (if act then 8#32 else 0#32) ||| p.code.setWidth 32 = BitVec.ofNat 32 low := by
  refine ⟨_, ?_, rfl, ?_⟩
  all_goals cases act <;> cases p <;> decide

/-- The three fields of STATUS do not overlap (R24). -/
theorem statusWord_eq (s : State) :
    statusWord s = BitVec.ofNat 32 (256 * s.lastOp.toNat + (if s.tmrAct then 8 else 0) + s.phase.number) := by
  have hop := s.lastOp.isLt
  obtain ⟨low, hlt, hnat, hword⟩ := statusWord_low s.tmrAct s.phase
  have hhigh : (s.lastOp.setWidth 32 <<< 8).toNat = 256 * s.lastOp.toNat := by
    simp [Nat.shiftLeft_eq]
    omega
  have hor : 256 * s.lastOp.toNat + low = 256 * s.lastOp.toNat ||| low :=
    Nat.two_pow_add_eq_or_of_lt hlt s.lastOp.toNat
  rw [statusWord, BitVec.or_assoc, hword, Nat.add_assoc, hnat, hor]
  apply BitVec.eq_of_toNat_eq
  rw [BitVec.toNat_or, hhigh, BitVec.toNat_ofNat, BitVec.toNat_ofNat, Nat.mod_eq_of_lt (by omega),
    Nat.mod_eq_of_lt (by omega)]

theorem mapValue_eq_regValue (s : State) (r : Reg) : mapValue s r = regValue s r := by
  cases r with
  | status => exact (statusWord_eq s).symm
  | _ => rfl

theorem exec_regWrite_offset (r : Reg) (w : Word) (s : State) :
    exec (.regWrite r.offset w) s = writeReg r w (respond .writeDone s) := by
  cases r <;> rfl

theorem exec_regWrite_of_reserved {off : BitVec 16} (hal : off.toNat % 4 = 0) (h : regAt off = none) (w : Word)
    (s : State) : exec (.regWrite off w) s = .next (respond .writeDone s) := by
  have hw : aligned 2 off = true := by simpa [aligned] using hal
  rw [exec, execRegWrite, if_pos hw, h]

/-- The offsets of the registers that a write changes or that run a command (R242). -/
def writableOffsets : List (BitVec 16) := [0x000, 0x004, 0x00C, 0x010, 0x014, 0x018, 0x01C, 0x024]

theorem writeReg_of_readOnly {r : Reg} (h : r.offset ∉ writableOffsets) (w : Word) (s : State) :
    writeReg r w s = .next s := by
  cases r with
  | ctrl | cmd | irqStatus | irqEnable | hdrCfg | ackFill | rto | txLen => exact absurd (by decide) h
  | _ => rfl

theorem exec_regWrite_of_not_writable {off : BitVec 16} (hal : off.toNat % 4 = 0) (h : off ∉ writableOffsets)
    (w : Word) (s : State) : exec (.regWrite off w) s = .next (respond .writeDone s) := by
  cases hr : regAt off with
  | none => exact exec_regWrite_of_reserved hal hr w s
  | some r =>
    obtain rfl := (regAt_eq_some_iff off r).1 hr
    rw [exec_regWrite_offset, writeReg_of_readOnly h]

/-- TX_LEN keeps its value while SENDING (R32, R242). -/
theorem writeReg_txLen (w : Word) (s : State) :
    writeReg .txLen w s = .next { s with txLen := if s.phase = .sending then s.txLen else w.setWidth 17 } := by
  rw [writeReg]
  split <;> rfl

/-! ## The value of bytes read little-endian (R63, R243) -/

/-- The first byte holds the low 8 bits, and the others follow above it. -/
theorem getLsbD_leValue_cons (b : Byte) (bs : List Byte) {i : Nat} (hi : i < 32) :
    (leValue (b :: bs)).getLsbD i = if i < 8 then b.getLsbD i else (leValue bs).getLsbD (i - 8) := by
  rw [leValue, BitVec.getLsbD_or, BitVec.getLsbD_setWidth, BitVec.getLsbD_shiftLeft]
  by_cases h : i < 8
  · simp [h, hi]
  · simp [h, hi, BitVec.getLsbD_of_ge b i (by omega)]

theorem leValue_byte (b0 : Byte) : leValue [b0] = b0.setWidth 32 := by
  simp [leValue]

theorem leValue_half (b0 b1 : Byte) : leValue [b0, b1] = (b1 ++ b0).setWidth 32 := by
  apply BitVec.eq_of_getLsbD_eq
  intro i hi
  rw [getLsbD_leValue_cons b0 _ hi, leValue_byte, BitVec.getLsbD_setWidth, BitVec.getLsbD_setWidth,
    BitVec.getLsbD_append]
  simp [hi, show i - 8 < 32 by omega]

theorem leValue_word (b0 b1 b2 b3 : Byte) : leValue [b0, b1, b2, b3] = b3 ++ b2 ++ b1 ++ b0 := by
  apply BitVec.eq_of_getLsbD_eq
  intro i hi
  rw [getLsbD_leValue_cons b0 _ hi, getLsbD_leValue_cons b1 _ (by omega), leValue_half, BitVec.getLsbD_append,
    BitVec.getLsbD_append]
  simp [show i - 8 - 8 < 32 by omega]

/-! ## Buffer reads (R243, R245) -/

theorem bufferRead_of_bytes {m : Memory} {limit : Nat} {o : BitVec 16} {n : Nat} (space : Space) {bs : List Byte}
    (hal : o.toNat % n = 0) (hend : o.toNat + n ≤ limit) (hlen : bs.length = n)
    (hread : ∀ k < n, Memory.read m (o.toNat + k) = bs[k]?) (s : State) :
    bufferRead space m limit o n s = .next (respond (.readDone (leValue bs)) s) := by
  rw [bufferRead, if_pos ((inBuffer_iff o n limit).2 ⟨hal, hend⟩),
    (readBytes_ok_iff space m o.toNat n bs).2 ⟨hlen, hread⟩]

section Reads

variable {m : Memory} {limit : Nat} {o : BitVec 16} {b0 b1 b2 b3 : Byte}

theorem bufferRead_byte (space : Space) (h0 : Memory.read m o.toNat = some b0) (hend : o.toNat + 1 ≤ limit)
    (s : State) : bufferRead space m limit o 1 s = .next (respond (.readDone (b0.setWidth 32)) s) := by
  rw [bufferRead_of_bytes (bs := [b0]) space (Nat.mod_one _) hend rfl, leValue_byte]
  intro k hk
  interval_cases k
  exact h0

theorem bufferRead_half (space : Space) (h0 : Memory.read m o.toNat = some b0)
    (h1 : Memory.read m (o.toNat + 1) = some b1) (hal : o.toNat % 2 = 0) (hend : o.toNat + 2 ≤ limit) (s : State) :
    bufferRead space m limit o 2 s = .next (respond (.readDone ((b1 ++ b0).setWidth 32)) s) := by
  rw [bufferRead_of_bytes (bs := [b0, b1]) space hal hend rfl, leValue_half]
  intro k hk
  interval_cases k
  · exact h0
  · exact h1

theorem bufferRead_word (space : Space) (h0 : Memory.read m o.toNat = some b0)
    (h1 : Memory.read m (o.toNat + 1) = some b1) (h2 : Memory.read m (o.toNat + 2) = some b2)
    (h3 : Memory.read m (o.toNat + 3) = some b3) (hal : o.toNat % 4 = 0) (hend : o.toNat + 4 ≤ limit) (s : State) :
    bufferRead space m limit o 4 s = .next (respond (.readDone (b3 ++ b2 ++ b1 ++ b0)) s) := by
  rw [bufferRead_of_bytes (bs := [b0, b1, b2, b3]) space hal hend rfl, leValue_word]
  intro k hk
  interval_cases k
  · exact h0
  · exact h1
  · exact h2
  · exact h3

end Reads

/-! ## Buffer writes (R244) -/

theorem txbufWrite_of_inside {o : BitVec 16} {n : Nat} {s : State} (hal : o.toNat % n = 0)
    (hend : o.toNat + n ≤ s.params.txbufBytes) (w : Word) :
    txbufWrite n o w s =
      .next (respond .writeDone { s with txbuf := writeBytes s.txbuf o.toNat (leBytes w n) }) :=
  if_pos ((inBuffer_iff o n _).2 ⟨hal, hend⟩)

/-- Write data stores its byte `k` at offset `off + k`, and nothing beside its bytes (R63, R244). -/
theorem read_writeBytes_leBytes (m : Memory) (off n : Nat) (w : Word) (a : Nat) :
    Memory.read (writeBytes m off (leBytes w n)) a =
      if off ≤ a ∧ a < off + n then some (w.extractLsb' (8 * (a - off)) 8) else Memory.read m a := by
  rw [read_writeBytes, leBytes_length]
  refine ite_congr rfl (fun hin => leBytes_getElem? w ?_) fun _ => rfl
  omega

end Sys2Proof.Machine

namespace Sys2Proof.Proofs

open Sys2Proof Sys2Proof.Machine Sys2Proof.Claims

/-- Settles O17, by the meaning of the command word 0. -/
theorem nopWritesLastOpOnly : Obligations.NopWritesLastOpOnly := fun _ => rfl

/-- Settles O18, by the meaning of the command word 3. -/
theorem closeGoesIdleAndDisarms : Obligations.CloseGoesIdleAndDisarms := fun _ => rfl

/-- Settles O21: R247 refuses every word above 3, and the start of a transfer where it is not legal. -/
theorem illegalCommandsOnlyRaiseTheirEvent : Obligations.IllegalCommandsOnlyRaiseTheirEvent :=
  fun s => ⟨fun _ hw => runCommand_of_gt_three hw _, (txStartOpensTheWindowOrIsIllegal s).2,
    (rxStartBuildsTheInitialAckOrIsIllegal s).2⟩

/-- Settles O23, by the register an offset stands for; none stands at 0x050 or above. -/
theorem registerReadsReturnTheMapAndChangeNothing : Obligations.RegisterReadsReturnTheMapAndChangeNothing := by
  refine fun s => ⟨fun off v h => ?_, fun off hal hge => ?_⟩
  · have hmap : (off, v) ∈ Reg.all.map fun r => (r.offset, mapValue s r) := h
    obtain ⟨r, -, hr⟩ := List.mem_map.1 hmap
    obtain ⟨rfl, rfl⟩ := Prod.mk.inj hr
    rw [exec_regRead_offset, mapValue_eq_regValue]
    rfl
  · rw [exec_regRead hal, regValueAt_of_ge s hge]
    rfl

/-- Settles O24, by the register an offset stands for. -/
theorem registerWritesFollowTheirAccessType : Obligations.RegisterWritesFollowTheirAccessType := by
  intro s w
  refine ⟨exec_regWrite_offset .ctrl w s, ?_, exec_regWrite_offset .irqStatus w s,
    exec_regWrite_offset .irqEnable w s, exec_regWrite_offset .hdrCfg w s, exec_regWrite_offset .ackFill w s,
    exec_regWrite_offset .rto w s, ?_, fun off hal hoff => exec_regWrite_of_not_writable hal hoff w s⟩
  · exact (exec_regWrite_offset .cmd w s).trans (exec_decodeCmd w s).symm
  · exact (exec_regWrite_offset .txLen w s).trans (writeReg_txLen w _)

/-- Settles O25, by the value of the bytes read. -/
theorem txbufReadsAreLittleEndian : Obligations.TxbufReadsAreLittleEndian := by
  refine fun s o => ⟨fun i n hi hend => ?_, fun b0 b1 b2 b3 h0 => ⟨fun hend => ?_, fun h1 => ⟨fun hal hend => ?_,
    fun h2 h3 hal hend => ?_⟩⟩⟩
  · exact (exec_txbufRd hi s).trans (bufferRead_of_pastEnd _ _ hend s)
  · exact bufferRead_byte _ h0 hend s
  · exact bufferRead_half _ h0 h1 hal hend s
  · exact bufferRead_word _ h0 h1 h2 h3 hal hend s

/-- Settles O26, by the value of the bytes read. -/
theorem rxbufReadsAreLittleEndian : Obligations.RxbufReadsAreLittleEndian := by
  refine fun s o => ⟨fun i n hi hend => ?_, fun b0 b1 b2 b3 h0 => ⟨fun hend => ?_, fun h1 => ⟨fun hal hend => ?_,
    fun h2 h3 hal hend => ?_⟩⟩⟩
  · exact (exec_rxbufRd hi s).trans (bufferRead_of_pastEnd _ _ hend s)
  · exact bufferRead_byte _ h0 hend s
  · exact bufferRead_half _ h0 h1 hal hend s
  · exact bufferRead_word _ h0 h1 h2 h3 hal hend s

/-- Settles O27: the bytes stored are those of the write data. -/
theorem txbufWritesStoreExactlyTheirBytes : Obligations.TxbufWritesStoreExactlyTheirBytes := by
  refine fun s o w i n hi => ⟨fun hend => ?_, fun hal hend => ⟨_, ?_, read_writeBytes_leBytes s.txbuf o.toNat n w⟩⟩
  · exact (exec_txbufWr hi s).trans (txbufWrite_of_pastEnd hend w)
  · exact (exec_txbufWr hi s).trans (txbufWrite_of_inside hal hend w)

end Sys2Proof.Proofs
end

section
/-! The events of spec/60_exceptions.md: an operation raises at most one and sets only its bit (R270, R271, R274), and
the host's write of 1s raises none and sets no bit (R242, R276). -/

namespace Sys2Proof.Machine

/-- The event bits that stand in `t` stood in `s`. -/
def SetsNoBit (s t : State) : Prop := ∀ k, t.irqStatus.getLsbD k = true → s.irqStatus.getLsbD k = true

theorem RaisesAtMostOne.noEvent_or_oneEvent {s t : State} (h : RaisesAtMostOne s t) :
    (t.events = s.events ∧ SetsNoBit s t) ∨
      ∃ e, t.events = s.events ++ [e] ∧ t.irqStatus = s.irqStatus ||| e.event.mask := by
  rcases h with ⟨hirq, hev⟩ | ⟨e, info, hirq, hev⟩
  · exact .inl ⟨hev, fun k hk => hirq ▸ hk⟩
  · exact .inr ⟨⟨e, info⟩, hev, hirq⟩

theorem setsNoBit_of_cleared {s t : State} {ones : BitVec 8} (hirq : t.irqStatus = s.irqStatus &&& ~~~ones) :
    SetsNoBit s t := by
  intro k hk
  rw [hirq, BitVec.getLsbD_and] at hk
  exact Bool.and_elim_left hk

end Sys2Proof.Machine

namespace Sys2Proof.Proofs

open Sys2Proof Sys2Proof.Machine

/-- Settles O50: an instruction raises at most one event, or it is the write of 1s, which only clears bits. -/
theorem everyOperationRaisesAtMostOneEvent : Obligations.EveryOperationRaisesAtMostOneEvent := by
  intro i s t h
  rcases (exec_effect h).events_cases with hraise | ⟨w, -, hirq, hev⟩
  · exact hraise.noEvent_or_oneEvent
  · exact .inl ⟨hev, setsNoBit_of_cleared hirq⟩

end Sys2Proof.Proofs
end

section
/-! Reset of spec/70_reset_and_hazards.md: what a reset turn gives (R300, R302), and the invariant at power-on. -/

namespace Sys2Proof.Machine

theorem step_reset {s : State} {rest : List Turn} (ha : s.agenda = .reset :: rest) :
    step s = .next (applyReset { s with agenda := rest }) :=
  step_cons ha

/-- At power-on both buffers hold no byte, so none can stand outside its buffer. -/
theorem State.reset_storageOk : State.reset.StorageOk :=
  ⟨⟨rfl, nofun⟩, ⟨rfl, nofun⟩, Nat.zero_le _, fun a ha => absurd ha (Nat.not_lt_zero a)⟩

/-- At power-on no transfer runs and the timer is disarmed. -/
theorem State.reset_senderOk : State.reset.SenderOk :=
  State.senderOk_of_disarmed (by decide) rfl rfl

/-- At power-on LA is NONE, link-out is empty and the block is not RECEIVING. -/
theorem State.reset_framesOk : State.reset.FramesOk :=
  ⟨nofun, nofun, nofun⟩

end Sys2Proof.Machine

namespace Sys2Proof.Proofs

open Sys2Proof Sys2Proof.Machine

/-- Settles O14: `applyReset` takes every register from `State.reset` and keeps the rest (R300, R302). -/
theorem resetAtAnyStepGivesTheResetValues : Obligations.ResetAtAnyStepGivesTheResetValues :=
  fun _ _ ha => step_reset ha

/-- Settles O16, by the groups of clauses of the invariant. -/
theorem resetMeetsTheInvariant : Obligations.ResetMeetsTheInvariant :=
  State.reset.inv_iff.2 ⟨by decide, State.reset_storageOk, State.reset_senderOk, State.reset_framesOk⟩

end Sys2Proof.Proofs
end
